-- ==== Sys2Proof/Word.lean ====
section
/-! DEFINITION. The word types of the model and its one container, a finite table with a default (`Tab`). -/

namespace Sys2Proof

/-- A byte (R3). -/
abbrev W8 := BitVec 8
/-- A 16-bit quantity. -/
abbrev W16 := BitVec 16
/-- A 32-bit word, the unit of packets and records (R30, R34). -/
abbrev W32 := BitVec 32
/-- A 64-bit quantity: times (R5), addresses (R31), wide registers (R10). -/
abbrev W64 := BitVec 64

/-- A finite table: `dflt` everywhere but at the keys listed.  Plain data, so that states can be compared. -/
structure Tab (κ α : Type) where
  dflt : α
  ents : List (κ × α)
deriving DecidableEq, Repr

/-- The value listed for a key, if one is. -/
def Tab.look {κ α : Type} [DecidableEq κ] (k : κ) : List (κ × α) → Option α
  | [] => none
  | (k', v) :: l => if k' = k then some v else Tab.look k l

/-- The list with the entry of one key removed. -/
def Tab.drop {κ α : Type} [DecidableEq κ] (k : κ) : List (κ × α) → List (κ × α)
  | [] => []
  | (k', v) :: l => if k' = k then Tab.drop k l else (k', v) :: Tab.drop k l

/-- The value of a table at a key. -/
def Tab.get {κ α : Type} [DecidableEq κ] (t : Tab κ α) (k : κ) : α :=
  match Tab.look k t.ents with
  | some v => v
  | none => t.dflt

/-- The table with one key set. -/
def Tab.set {κ α : Type} [DecidableEq κ] (t : Tab κ α) (k : κ) (v : α) : Tab κ α :=
  { t with ents := (k, v) :: Tab.drop k t.ents }

/-- The table with one key changed by a function. -/
def Tab.upd {κ α : Type} [DecidableEq κ] (t : Tab κ α) (k : κ) (f : α → α) : Tab κ α :=
  t.set k (f (t.get k))

/-- The table with one key back at the default. -/
def Tab.clear {κ α : Type} [DecidableEq κ] (t : Tab κ α) (k : κ) : Tab κ α :=
  { t with ents := Tab.drop k t.ents }

/-- The table with every listed value changed by a function of key and value (the default stays). -/
def Tab.mapV {κ α : Type} (t : Tab κ α) (f : κ → α → α) : Tab κ α :=
  { t with ents := t.ents.map (fun e => (e.1, f e.1 e.2)) }

/-- The table with only the listed entries that a test keeps. -/
def Tab.keep {κ α : Type} (t : Tab κ α) (p : κ → α → Bool) : Tab κ α :=
  { t with ents := t.ents.filter (fun e => p e.1 e.2) }

/-- An empty table with a default. -/
def Tab.of {κ α : Type} (d : α) : Tab κ α := ⟨d, []⟩

end Sys2Proof
end

