-- ==== Sys2Proof/Config.lean ====
section
/-! DEFINITION. What an implementation fixes, and the free values: results the manual leaves open.
Every constant here is opaque, so no proof can rest on a particular value. -/

namespace Sys2Proof.Config

/-- A fresh free value for each value of the counter `State.freeN`: used where the spec leaves a value open
(assumption log 3). -/
opaque freeValue : Nat → BitVec 64

/-- Low byte of the codes of SAFETY_FAULT (0), TORN_DOWN (1) and PARTITION_RESET (2), which the manual names and does
not number (assumption log 7). -/
opaque eventCodeLow : Nat → BitVec 8

/-- TANH (of a non-negative argument), SILU and GELU on finite FP32 arguments other than the points the manual
fixes: the manual gives an error bound, not a value
(R128, assumption log 8); Machine/Fp.lean holds the result to that bound. Kind: 1 TANH, 2 SILU, 3 GELU. -/
opaque gateFn : Nat → BitVec 32 → BitVec 32

/-- SIGMOID, which is monotone: where its result passes from the lower to the upper half of a range of codes, as a rank among the finite
FP32 values (R128, assumption log 8).  Arguments: bits of the code still to be decided, and those decided. -/
opaque sigmoidCut : Nat → Nat → Nat

/-- Counter index 0 to 65,535 of a row in row `k` of a partition's count sketch: the hash is not architectural (R166).
Arguments: k, tenant, table, local row. -/
opaque sketchHash : Nat → Nat → Nat → Nat → BitVec 16

/-- Which set of the row cache a row falls in: not architectural (R166). Arguments: tenant, table, local row. -/
opaque cacheSet : Nat → Nat → Nat → Nat

/-- The eight bytes per lane of a control flit's EQ field (Table 09.3), whose layout the manual does not give: the word that carries a request, an
acknowledgement, and the taps asked for, |c(−2)|, |c(−1)|, |c(1)|. -/
opaque eqWord : Bool → Bool → Nat → Nat → Nat → BitVec 64

/-- What a received EQ word says: field 0 a request, 1 an acknowledgement, 2 to 4 the taps asked for. -/
opaque eqField : Nat → BitVec 64 → Nat

/-! Algorithms of published standards that the manual names and does not describe (§00.1, assumption log 12). -/

/-- AES-256 of a 16-byte block read as a little-endian number, under a 256-bit key (R290). -/
opaque aes256 : BitVec 256 → BitVec 128 → BitVec 128

/-- SHA-256 of a byte string, its 32 bytes read as a little-endian number (R298). -/
opaque sha256 : List W8 → BitVec 256

/-- Which gadget digit a coefficient has at a level, and which digit of the key switch a value (R287): the manual gives their bases and no more
(assumption log 75). Arguments: descriptor of the parameter slot, residues of the coefficient or the value, level. -/
opaque gadgetDigit : List W8 → List Nat → Nat → Nat
opaque switchDigit : List W8 → Nat → Nat → Nat

/-- ristretto255 (RFC 9496): a canonical encoding, addition, scalar multiplication, the base point. -/
opaque ristOk : BitVec 256 → Bool
opaque ristAdd : BitVec 256 → BitVec 256 → BitVec 256
opaque ristMul : Nat → BitVec 256 → BitVec 256
opaque ristBase : BitVec 256

/-- Hash to a curve (R292): the point record of a message under a domain separation tag.  Curve 0 P-256, 1 ristretto255. -/
opaque hashToCurve : Nat → List W8 → List W8 → BitVec 512

/-- A byte of a sealed line read under another key generation than it was written under (R275): old and new generation, tenant,
line, byte within it, and the 64 bytes written. -/
opaque staleByte : W32 → W32 → Nat → Nat → Nat → List W8 → W8

/-- QST cycles of the one slice of a QPARAM_SET, which R284 does not give. -/
opaque qparamCost : Nat

/-- The image each boot-flash slot holds when the part leaves the factory, and the fused root key hash (R345, R346). -/
opaque factoryImage : Nat → List W8
opaque rootKeyHash : BitVec 256

/-- Bus address of the PF's BAR4, which host enumeration assigns (R352, R360). -/
opaque pfBar4 : BitVec 64

end Sys2Proof.Config
end

