-- ==== Sys2Proof/Machine/Reg.lean ====
section
/-! DEFINITION. The names of the registers of chapter 17, other than the queue register blocks
(which `Queue` holds).  A register is its name with up to two indices (R366). -/

namespace Sys2Proof.Machine

/-- One constructor per register of Tables 17.2 to 17.14 (R366).  Registers that are views of one
piece of state under several offsets are one name (R368, R369). -/
inductive RegName where
  -- Table 17.2, GLB
  | epoch | epochCtrl | epochHold | epochResult | epochDiscards | partReset
  | bgSelftest | bgMigStack | bgMigLink | bgZeroStack | bgCtrl | bgBal | bgUsed | bgExh
  | quantCtrl | embPlace | embRepl | exchPolicy
  -- Table 17.3, GLB record of a tenant
  | tenBudArray | tenBudStack | tenBudLink | tenBudQuisto | tenEvqCap | tenRngSeed
  | tenBal | tenUsed | tenExh | tenOverrun | tenSpilled | tenRecovery
  -- fences: tenant index, 64 for the PF
  | fence
  -- Table 17.4 and Table 17.10: event rings, doorbell counts, vectors; first index the function (0 = PF)
  | evqBase | evqCtrl | evqHead | evqTail | evqLost | dbReject | vecMod | yoyoSel | feed
  -- Table 17.5, PART
  | cells | queues | memQuota | rowcache | mode | toy | pstate | inflightRsv
  | budArray | budStack | budLink | budCtrl | schedCtrl | schedNodl | tilePolicy | embPolicy | intPolicy
  | rcAdmit | rcTheta | rcLookups | rcHits | rcAdmits | preempts | preemptMax
  | toyLoads | toyEvict | toyMisses | teardowns | resets | pOverrun | pBal | pUsed | pExh
  | bpEpisodes | bpThresh | bpTicks | pStall
  -- Table 17.6, CELL
  | arrayFenced | feedSel | feedWaste | stopTicks
  | tilesCommitted | tileMismatch | tileRetried | tileWatchdog | tileReplayed
  | chkCol | chkRow | chkGate | chkStage | tileNonfinite | arrayBusy | cStall
  -- Table 17.7, INT
  | splitCtrl | splitThresh | split
  -- Table 17.8, MEM
  | freePages | dirtyPages | retiredPages | zeroed | ifPolicy | scrub
  | memHeld | parErr | retries | retryExh | ce | ue | poisonReads | scrubPasses | chanState | temp | tempMax
  -- Table 17.9, LNK
  | lnkCtrl | lnkStatus | eqCtrl | eqState | txFlits | rxFlits | lnkRetries | badFlits | rxBadkind
  | fwdFlits | fwdDrop | retrains | rtt | fecCorr | lnkDevice | route
  -- Table 17.10, TEN
  | queueRange | partition | evqCapped | tenBalView | sealGen
  | quantSat | quantNan | quantMisfit | quantWidened | quantDrift | quantDriftLost
  | embBadidx | embFarErr | memBarDenied | rtMisses | seqPageIns | seqPageOuts | seqOrder
  | frameAge | frameFuture | frameStale | frameFutureCnt
  | badrec | trunc | locDropped | locReduced | locRefused | sceneTag | tStall
  -- Table 17.11, HOST
  | ptmCtrl | ptmStatus | ptmOffset | nvmeCtrl | nvmeDenied | nvmeBar | nvmeCfg | nvmeNsid
  -- Table 17.12, QST
  | qstPolicy | entStatus | residueErr
  -- Table 17.13, SAFE
  | safePolicy | logHead | logSel | lateCount | classCount | windup | windupTime | bootStatus
  | bootPrefer | mgmtDevnum | bootDigest
  -- Table 17.14, PWR
  | loopCfg | throttle | brake | droop | cap | capCfg | capStatus | power | energy
  | islCtrl | islStatus | islTemp | droopCount
deriving DecidableEq, Repr

/-- A register: its name, its instance `i` and its element `j` (R366); both 0 where it has neither. -/
structure Reg where
  n : RegName
  i : Nat := 0
  j : Nat := 0
deriving DecidableEq, Repr

end Sys2Proof.Machine
end

