-- ==== Sys2Proof/Machine/RegMap.lean ====
section
/-! DEFINITION. Chapter 17: the reset value of every register, and the map from BAR0 offsets to registers. -/

namespace Sys2Proof.Machine

/-- Nominal `TARGET_MHZ` of an island (Table 17.14). -/
def nominalMHz (k : Nat) : Nat :=
  if k < 16 then 1500 else if k < 24 then 1000 else if k < 28 then 1250
  else if k = 28 then 1000 else if k = 29 ∨ k = 32 then 1200 else 1500

/-- Value of a register of partition `p` that P0 alone has at reset (R52, Table 17.5). -/
def p0Reset (p v : Nat) : W64 := if p = 0 then BitVec.ofNat 64 v else 0

/-- Reset budget of the accounts of a tenant by unit (Table 04.3), in the units of Table 04.5 (R78). -/
def tenBudReset (u : Nat) : W64 :=
  if u = 0 then 6400000 else if u = 1 then BitVec.ofNat 64 (0x17D784 * 4096)
  else if u = 2 then BitVec.ofNat 64 (0x3D09 * 4096) else 0

/-- The Reset column of Tables 17.2 to 17.14, assembled per register (R370); registers not named here reset to 0. -/
def regReset (r : Reg) : W64 :=
  match r.n with
  | .epochHold => 0x7A120
  | .bgSelftest => 0x20
  | .bgMigStack => 0x3D09
  | .bgMigLink => 0x9C
  | .bgZeroStack => 0x7A12
  | .bgBal => if r.i = 0 then 32000 else if r.i = 1 then BitVec.ofNat 64 (0x3D09 * 4096)
      else if r.i = 2 then BitVec.ofNat 64 (0x9C * 4096) else BitVec.ofNat 64 (0x7A12 * 4096)
  | .embPlace => 0x00410020
  | .embRepl => 0x00400010
  | .exchPolicy => 0x00141403
  | .tenBudArray => 0x1900
  | .tenBudStack => 0x17D784
  | .tenBudLink => 0x3D09
  | .tenEvqCap => 0x40
  | .tenBal => tenBudReset r.j
  | .tenBalView => tenBudReset r.j
  | .evqCtrl => 0x600
  | .vecMod => 1
  | .feed => 0x4002
  | .cells => p0Reset r.i 0xFFFF
  | .queues => p0Reset r.i 0x40000000
  | .memQuota => p0Reset r.i 0xC000
  | .rowcache => p0Reset r.i 0x80
  | .mode => 4
  | .toy => p0Reset r.i 0x400000
  | .pstate => p0Reset r.i 1
  | .inflightRsv => 0x0000004000400100
  | .budArray => p0Reset r.i 0x1900
  | .budStack => p0Reset r.i 0x17D784
  | .budLink => p0Reset r.i 0x3D09
  | .schedCtrl => 1
  | .schedNodl => 0x989680
  | .tilePolicy => 0xD
  | .embPolicy => 0x321
  | .rcAdmit => 0x60104002
  | .rcTheta => 2
  | .pBal => if r.i = 0 then tenBudReset r.j else 0
  | .bpThresh => 0x186A0
  | .splitCtrl => 0xC0024000
  | .splitThresh => 0x00320080
  | .split => 0x40
  | .freePages => 0x1800
  | .ifPolicy => 0x000810BB
  | .scrub => 0x00010800
  | .chanState => 0x8000
  | .lnkCtrl => 0x80D
  | .lnkStatus => 0xFFFF0001
  | .eqCtrl => 0x30
  | .lnkDevice => 0xFFFF
  | .route => 0xFFFF
  | .frameAge => 0x02FAF080
  | .frameFuture => 0x2710
  | .ptmCtrl => 0xA01
  | .qstPolicy => 5
  | .safePolicy => 7
  | .mgmtDevnum => 0xFFFF
  | .loopCfg => 0x148
  | .throttle => 0x350
  | .brake => 3
  | .droop => 0x32
  | .cap => 0x5DC
  | .capCfg => 2
  | .capStatus => 0x40
  | .islCtrl => BitVec.ofNat 64 (nominalMHz r.i)
  | .islStatus => BitVec.ofNat 64 (nominalMHz r.i + 40 * 4096)
  | .windup => 7
  | .bootStatus => 1
  | _ => 0

end Sys2Proof.Machine
end

