-- ==== Sys2Proof/Machine/Value.lean ====
section
/-! DEFINITION. The values numbers of every format stand for (R115, R126). -/

namespace Sys2Proof.Machine

/-- A value of a format: NaN, an infinity, or a finite dyadic (−1)^neg · m · 2^e (m = 0 is a signed zero). -/
inductive Fv where
  | nan
  | inf (neg : Bool)
  | fin (neg : Bool) (m : Nat) (e : Int)
deriving DecidableEq, Repr

end Sys2Proof.Machine
end

