-- ==== Sys2Proof/Syntax.lean ====
section
/-! DEFINITION. The commands the block takes: one constructor per row of the opcode table, with its operands. -/

namespace Sys2Proof

/-- What the host link returns to the reads a command makes of host memory: runs of bytes by requester-side host
bus address.  Host memory lies outside the device, so the answer comes with the command (assumption log 4).  An
address no run covers is a read that fails (R354). -/
structure Seg where
  addr : Nat
  bytes : List W8
deriving DecidableEq, Repr

/-- The answers of the host link to one command's reads. -/
abbrev HostData := List Seg

/-- A stored error that a line of stacked memory has taken on (R222): one symbol, which the code corrects, or more, which it does not
(`fatal`).  Which lines take errors, and when, is the environment's part: commands that read memory bring the new ones with them. -/
structure LineErr where
  line : Nat
  fatal : Bool
deriving DecidableEq, Repr

/-- What stacked memory has taken on when a command reads it: an error stored in a line, or a parity failure in the owner tag or the map entry
of a page (R309). -/
inductive Hit where
  | line (e : LineErr)
  | tag (page : Nat)
deriving DecidableEq, Repr

/-- A temperature reading of a memory channel: its hottest layer and that layer's °C (R229). -/
structure ChanTemp where
  chan : Nat
  layer : Nat
  deg : Nat
deriving DecidableEq, Repr

/-- One island's readings at an interval start (R329): its hottest logic sensor in °C; the highest frequency in MHz at which its margin
monitors report positive margin at the maximum voltage; the lowest supply, in units of 6.25 mV above 0.5 V, that leaves MARGIN_PS of
slack at the frequency the loop sets. -/
structure IslRead where
  isl : Nat
  deg : Nat
  fmax : Nat
  volt : Nat
deriving DecidableEq, Repr

/-- What the array and its gate pipeline got wrong in a tile, the environment's part of a tile (R130 to R132); all empty in a tile without a
fault.  Positions are those of the tile: its rows and columns from 0. -/
structure TileErr where
  /-- accumulators that hold another word: row, column, the word -/
  acc : List (Nat × Nat × W32) := []
  /-- sums the checksum lane itself got wrong: of a column (true) or a row, and its number -/
  lane : List (Bool × Nat) := []
  /-- results the gate pipeline got wrong: row, step (0 the conversion to FP32, then each operation, last the conversion to OFMT), element of
  the row, the word -/
  gate : List (Nat × Nat × Nat × W32) := []
  /-- bytes of the staging area that read out wrong at commit: offset and byte -/
  line : List (Nat × W8) := []
deriving DecidableEq, Repr

/-- Nothing went wrong. -/
def TileErr.none : TileErr := {}

/-- The tile was without a fault. -/
def TileErr.clean (e : TileErr) : Bool := decide (e = TileErr.none)

/-- A read of the host link that gets no completion (R354): of a queue's ring, of a tier T2 block by its far-tier request, of a stream
slot's record by its far-tier request. -/
inductive CtoRead where
  | ring (q : Nat) | far (k : Nat) | page (k : Nat)
deriving DecidableEq, Repr

/-- The engines that run slices (R108, R256, R281, Table 18.1): copy, zero and gather engines by memory island, the three Intake and Locale
engines, the Quisto units, and the sealed-page port of either Quisto unit. -/
inductive Engine where
  | memCopy (m : Nat) | memZero (m : Nat) | gather (m : Nat) | decode | frame | locale
  | quisto (u : Nat) | sealPort (u : Nat)
deriving DecidableEq, Repr

/-- The instructions of the boundary-scan port (R365). -/
inductive Tap where
  | bypass | idcode | sample | preload | extest | clamp | highz
deriving DecidableEq, Repr

/-- How the steps of a KEY_UPDATE came out (R301). -/
inductive KeyOutcome where
  | ok | verifyFailed | fuseFailed
deriving DecidableEq, Repr

/-- What a host register write goes to: an access of `size` bytes at an offset of the function's BAR0 (R10), or a register of its PCI
Express configuration space whose effect the manual describes: Command (Bus Master Enable, R355), MSI-X Message Control (R85, R87), Device
Control 2 (completion timeout, R354), and on the PF SR-IOV Control (VF Enable, R383) and PTM Control (R356). -/
inductive RegTarget where
  | bar0 (off size : Nat)
  | command | msixControl | devControl2 | sriovControl | ptmControl
deriving DecidableEq, Repr

/-- What a host read goes to (R10, R27, R352): an offset of BAR0 or of BAR2, or a double word of configuration space. -/
inductive ReadTarget where
  | bar0 (off : Nat)
  | bar2 (off : Nat)
  | config (off : Nat)
deriving DecidableEq, Repr

/-- What a ring read that returns brings (R44, R309): the answers of the host link, and whether the parity of the queue range that gives the read
its function fails. -/
structure RingReturn where
  par : Bool
  data : HostData
deriving DecidableEq, Repr

/-- What a period boundary reads (R229, R305, R309): the temperatures of the memory channels, and whether the recount of the accounts
disagrees. -/
structure BoundaryIn where
  temps : List ChanTemp
  disagree : Bool
deriving DecidableEq, Repr

/-- The commands, one for each row of the opcode table.  A packet's command names the context it runs in: its queue and its count (R45).
Functions are numbered 0 for the PF and t + 1 for the VF of tenant t. -/
inductive Instr where
  | NOP (q c : Nat) (h : HostData)
  | STEP_BEGIN (q c : Nat) (h : HostData)
  | STEP_END (q c : Nat) (h : HostData)
  | FENCE_SIGNAL (q c : Nat) (h : HostData)
  | FENCE_WAIT (q c : Nat) (h : HostData)
  | MODEL_LOAD (q c : Nat) (h : HostData)
  | MODEL_PIN (q c : Nat) (h : HostData)
  | MODEL_EVICT (q c : Nat) (h : HostData)
  | MATMUL (q c : Nat) (h : HostData)
  | GATE_ONLY (q c : Nat) (h : HostData)
  | LAYER_SET (q c : Nat) (h : HostData)
  | LAYER_READ (q c : Nat) (h : HostData)
  | TABLE_DEFINE (q c : Nat) (h : HostData)
  | TABLE_RETIRE (q c : Nat) (h : HostData)
  | GATHER_POOL (q c : Nat) (h : HostData)
  | ROW_UPDATE (q c : Nat) (h : HostData)
  | TABLE_LOAD (q c : Nat) (h : HostData)
  | TABLE_FLUSH (q c : Nat) (h : HostData)
  | TABLE_STATS (q c : Nat) (h : HostData)
  | SEQ_DEFINE (q c : Nat) (h : HostData)
  | SEQ_CHUNK (q c : Nat) (h : HostData)
  | SEQ_TOUCH (q c : Nat) (h : HostData)
  | SEQ_RETIRE (q c : Nat) (h : HostData)
  | INTAKE_DECODE (q c : Nat) (h : HostData)
  | RNG_FILL (q c : Nat) (h : HostData)
  | FRAME_CONVERT (q c : Nat) (h : HostData)
  | LOCALE_PILLARS (q c : Nat) (h : HostData)
  | RULEBOOK_BUILD (q c : Nat) (h : HostData)
  | LOCALE_GATHER (q c : Nat) (h : HostData)
  | EXCHANGE (q c : Nat) (h : HostData)
  | SEAL_ALLOC (q c : Nat) (h : HostData)
  | SEAL_FREE (q c : Nat) (h : HostData)
  | QPARAM_SET (q c : Nat) (h : HostData)
  | GATE_BATCH (q c : Nat) (h : HostData)
  | BASE_CONVERT (q c : Nat) (h : HostData)
  | SHARE_OP (q c : Nat) (h : HostData)
  | TRIPLE_GEN (q c : Nat) (h : HostData)
  | CURVE_OP (q c : Nat) (h : HostData)
  | HASH_TO_CURVE (q c : Nat) (h : HostData)
  | QRNG_FILL (q c : Nat) (h : HostData)
  | KEY_AGREE (q c : Nat) (h : HostData)
  | SHARE_EXPORT (q c : Nat) (h : HostData)
  | SHARE_IMPORT (q c : Nat) (h : HostData)
  | KEY_UPDATE (q c : Nat) (h : HostData)
  | PAGE_ALLOC (q c : Nat) (h : HostData)
  | PAGE_FREE (q c : Nat) (h : HostData)
  | MEM_ZERO (q c : Nat) (h : HostData)
  | MEM_COPY (q c : Nat) (h : HostData)
  | EPOCH_COMMIT (q c : Nat) (h : HostData)
  | EPOCH_HOLD_LIMIT_EXPIRY
  | DOORBELL (fn off size : Nat) (v : W64)
  | QUEUE_ENABLE (fn q : Nat)
  | QUEUE_DISABLE (fn q : Nat)
  | QUEUE_PAUSE (fn q : Nat) (v : Bool)
  | QUEUE_RESTART (fn q : Nat)
  | QUEUE_RANGE_WRITE (t : Nat) (v : W32)
  | EVQ_ENABLE (fn : Nat)
  | EVQ_HEAD_WRITE (fn : Nat) (v : W32)
  | EPOCH_OPEN
  | EPOCH_ABANDON
  | RWE_WRITE (off size : Nat) (v : W64)
  | REGISTER_WRITE (fn : Nat) (t : RegTarget) (v : W64) (h : HostData)
  | REGISTER_READ_LATCH (fn : Nat) (t : ReadTarget) (size : Nat)
  | SCHED_CLR_MAX (p : Nat)
  | ARRAY_FENCE_CLEAR (n : Nat) (v : W32)
  | PART_RESET_WRITE (v : W32)
  | PARTITION_RESET_COMPLETE (p : Nat)
  | SOFTWARE_RESET (v : W32)
  | SVN_COMMIT (v : W32)
  | LINK_ENABLE (l : Nat)
  | LINK_DISABLE (l : Nat) (h : HostData)
  | LINK_DEVICE_WRITE (v : W32)
  | NVME_AREA_ENABLE (v : W32)
  | NVME_DRIVE_ENABLE (d : Nat) (v : W64)
  | NVME_DRIVE_ONLINE (d : Nat) (on : Bool)
  | CAP_WRITE (v : W32) (mgmt : Bool)
  | CAP_EFFECTIVE
  | VF_ENABLE_CLEAR
  | MSIX_UNMASK (fn v : Nat)
  | MSIX_SEND (fn v : Nat)
  | FETCH_TURN
  | FETCH_READ_RETURN (q : Nat) (r : RingReturn)
  | COMMAND_DISPATCH (q : Nat)
  | BACKPRESSURE_THRESHOLD (q cause : Nat)
  | PERIOD_BOUNDARY (b : BoundaryIn)
  | SKETCH_DECAY (p : Nat)
  | TOY_USE_DECAY
  | TILE_DISPATCH (k : Nat) (h : HostData)
  | TILE_COMMIT (k : Nat) (ck : TileErr) (h : HostData)
  | TILE_WATCHDOG_EXPIRY (k : Nat)
  | SLICE_END (e : Engine) (n : Nat) (ok : Bool) (h : HostData)
  | SELFTEST_ROUND_OVERRUN
  | FEEDER_REGION_FILLED (k : Nat) (e : List Hit) (h : HostData)
  | DEADLINE_MISS (sid : Nat)
  | ROW_READ_COMPLETE (k : Nat) (e : List Hit) (h : HostData)
  | FAR_READ_COMPLETE (k : Nat) (data : Option (List W8)) (h : HostData)
  | FAR_WRITEBACK_COMPLETE (k : Nat) (h : HostData)
  | FAR_TIMEOUT (k : Nat) (h : HostData)
  | NVME_COMPLETION (d y : Nat) (h : HostData)
  | BLOCK_MOVE_COPY_DONE (k : Nat)
  | PLACEMENT_WINDOW_END
  | REPLICA_EXPIRY
  | SEQ_SLOT_ACQUIRE (q c : Nat)
  | SLOT_PAGE_IN_DONE (k : Nat) (data : Option (List W8))
  | SLOT_PAGE_OUT_DONE (k : Nat) (ok : Bool)
  | ZERO_ENGINE_PAGE_DONE (m : Nat)
  | TOYCHEST_SLOT_ZEROED (k : Nat)
  | MEM_PARITY_RETRY (line lane : Nat) (write ok : Bool) (who : Option (Nat × Nat))
  | LANE_REPAIR_DONE (c : Nat)
  | SCRUB_READ (c : Nat) (o : List Hit)
  | BAR4_ACCESS (fn off len : Nat) (write : Option (List W8)) (e : List Hit)
  | NVME_AREA_ACCESS (rid off len : Nat) (write : Option (List W8))
  | DATA_FLIT_RX (l : Nat) (bytes : List W8) (h : HostData)
  | CONTROL_FLIT_RX (l : Nat) (bytes : List W8) (h : HostData)
  | FRAME_TRANSMIT (l : Nat)
  | CONTROL_SLOT (l : Nat)
  | LINK_RETRY_LIMIT (l : Nat) (h : HostData)
  | LINK_CONTROL_LOSS (l : Nat) (h : HostData)
  | LINK_LOCK_LOSS (l : Nat) (h : HostData)
  | LINK_TRAINING_COMPLETE (l good : Nat)
  | LINK_REEXAMINE (l : Nat) (signal : Bool)
  | EQ_INTERVAL_END (l : Nat)
  | EXCHANGE_TIMEOUT (x : Nat) (h : HostData)
  | CONTROL_INTERVAL (mw : Nat) (rs : List IslRead) (temps : List ChanTemp)
  | CAP_ESCALATION
  | CAP_UNMET_CHANGE
  | THROTTLE_DEMAND_DECAY (k src : Nat)
  | THROTTLE_STOP_WINDOW_END (k : Nat)
  | STACK_HEAT_ESCALATE (n : Nat)
  | BRAKE_EDGE (low : Bool)
  | THERMAL_TRIP
  | DROOP_DETECT (k : Nat)
  | DROOP_RESTART (k : Nat) (lost : Bool)
  | CLOCK_VOLTAGE_FAULT (k : Nat)
  | CLOCK_FAULT_RESTART (k : Nat)
  | LOCKSTEP_MISMATCH
  | ENTROPY_HEALTH_FAIL (u test : Nat)
  | ENTROPY_RESTART (u : Nat) (ok : Bool)
  | DRBG_RESEED (u : Nat)
  | PTM_DIALOG (master : Option W64)
  | HOST_LINK_CHANGE (rate width : Nat) (flit : Bool)
  | PCIE_ERROR_RX (fn : Nat) (ur : Bool)
  | POWER_ON_RESET
  | CONVENTIONAL_RESET
  | MANAGEMENT_RESET (v : Nat)
  | TEST_RESET (i : Tap)
  | TAP_INSTRUCTION (i : Tap)
  | FLR_PF
  | FLR_VF (t : Nat)
  | FUSE_READ (rootOk : Bool)
  | SAFE_START (ok : Bool)
  | SECURE_BOOT
  | STACK_TRAIN (bad : Option Nat)
  | LINK_TRAIN (good : List (Nat × Nat))
  | SELF_TEST (bad : List Nat) (u0 u1 : Bool)
  | READY
  | MCTP_SET_ENDPOINT_ID (v : Nat)
  | PLDM_SENSOR_READ (id : Nat)
  | MGMT_DEVNUM_WRITE (v : Nat)
  | FAULT_LOG_READ (i : Nat)
  | FIRMWARE_UPDATE_TRANSFER (len off : Nat) (bytes : List W8)
  | APPLY_COMPLETE
  | ACTIVATE_FIRMWARE
  | FENCE_WAIT_TIMEOUT (q c : Nat)
  | COMPLETION_TIMEOUT (t : CtoRead) (h : HostData)
  | KEY_UPDATE_COMPLETE (o : KeyOutcome)
  | CONFIGURATION_CRC_CHECK (ok : Bool)
deriving DecidableEq, Repr

end Sys2Proof
end

