-- ==== Sys2Proof/Machine/State.lean ====
section
/-! DEFINITION. The state of the block: plain data, holding every piece of state the manual names, and the
queue of waiting commands; and the state after reset. -/

namespace Sys2Proof.Machine

/-- Why a step stops with a fault. -/
inductive Fault where
  /-- Raised by every command whose operand names a unit the device does not have (a queue above 16,383, an array
  above 63 …; `Instr.WellFormed` is false).  Safe: such a command cannot reach the device. -/
  | noSuchUnit
deriving DecidableEq, Repr

/-- Why a step is refused. -/
inductive Refusal where
  /-- Raised by a command that has no meaning in the model yet.  Safe. -/
  | notModelled (mnemonic : String)
deriving DecidableEq, Repr

/-! ### Chapter 02: queues, contexts, event rings -/

/-- The stored part of `Q_STATUS.STATE` (Table 02.12); PAUSED, HELD and DRAINING are computed from the rest. -/
inductive QMode where
  | disabled | running | faulted | stopping
deriving DecidableEq, Repr

/-- A hold in force on a queue (R48): its cause, the tick it began, and whether BACKPRESSURE was raised (R49). -/
structure Hold where
  cause : Nat
  since : W64
  raised : Bool := false
deriving DecidableEq, Repr

/-- A ring read outstanding (R43): first count and number of packets. -/
structure RingRead where
  first : W32
  n : Nat
  at_ : W64
deriving DecidableEq, Repr

/-- One hardware queue: its register block (Table 02.11) and the fetch state behind it. -/
structure Queue where
  ringBase : W64 := 0
  cplBase : W64 := 0
  enable : Bool := false
  pause : Bool := false
  stepAbort : Bool := false
  log2 : Nat := 6
  vector : Nat := 0
  deadline : W32 := 0
  mode : QMode := .disabled
  cause : Nat := 0
  head : W32 := 0
  tail : W32 := 0
  done : W32 := 0
  reads : List RingRead := []
  /-- the step table entry of the explicit step opened at fetch and not yet closed at fetch (R46) -/
  openSid : Option Nat := none
  holds : List Hold := []
  /-- contexts promised to the queue when its hold on cause 2 ended, for its next read (R48) -/
  grant : Nat := 0
deriving DecidableEq, Repr

/-- Where a context stands (R45, R47). -/
inductive Phase where
  /-- fetched and checked, not dispatched -/
  | fetched
  /-- dispatched: it may begin its own effect -/
  | dispatched
  /-- begun: its work is under way -/
  | running
  /-- completed: status and DETAIL known, record not yet written -/
  | done
deriving DecidableEq, Repr

/-- What a begun command still has to do. -/
inductive Work where
  | none
  /-- `n` tiles: `next` is the lowest ordinal not yet dispatched, `fin` the ordinals committed; `wide` after Widen
  has begun its second pass (R145), and `acc` the statistics folded over committed tiles. -/
  | tiles (n next : Nat) (fin : List Nat) (wide : Bool)
  /-- `total` units on an engine, `did` committed, `slice` the number of the slice in progress; `aux` counts
  what the command's definition reports in its DETAIL. -/
  | units (e : Engine) (total did slice aux aux2 : Nat)
  /-- waits for something other than an engine (a fence, a boundary, the zero engine, references, far reads …) -/
  | waits (since : W64) (aux aux2 : Nat)
deriving DecidableEq, Repr

/-- Identity of a context: its queue and its count. -/
structure CtxId where
  q : Nat
  c : W32
deriving DecidableEq, Repr

/-- A command context (R45). -/
structure Ctx where
  id : CtxId
  fn : Nat
  part : Option Nat
  sid : Nat
  epoch : W32
  words : List W32
  phase : Phase
  status : Nat
  detail : W32
  evt : Bool
  fetchedAt : W64
  begunAt : W64
  work : Work
  /-- TEN.FEED of its queue when it was fetched (R232) -/
  feed : W32 := 0x4002
  /-- stack bytes already charged of an access whose later requests still wait on an account (R79, R81) -/
  paid : Nat := 0
  /-- the record was held when the queue was disabled: Q_DONE passes it without a write (R42) -/
  dropped : Bool := false
deriving DecidableEq, Repr

/-- The yo-yo record of a step (Table 05.5). -/
structure Yoyo where
  cmdCount : W32
  nextTile : W32
  stepId : W32
  queue : Nat
  rt : Bool
  part : Nat
  reason : Nat
  late : Bool
  losses : Nat
deriving DecidableEq, Repr

/-- An entry of the step table (R95). -/
structure Step where
  q : Nat
  fn : Nat
  part : Option Nat
  explicit : Bool
  stepId : W32
  rt : Bool
  /-- the step has a deadline (R47, item 6) -/
  hasDl : Bool
  admitted : Bool
  key : W64
  admitAt : W64
  epoch : W32
  /-- commands completed with a status of 0x10 or above, and from 0x01 to 0x04 (R35) -/
  failHi : Nat
  failLo : Nat
  /-- count of the failed command from which STEP_ABORT refuses later ones (R47, item 7) -/
  abortFrom : Option W32
  /-- a teardown or partition reset ended the step: the status and DETAIL of its remaining commands (R314, R318) -/
  ended : Option (Nat × W32)
  /-- an EXCHANGE of the step was fetched (R35, reason 6) -/
  exchFetched : Bool
  /-- an EXCHANGE, explicit or implicit, has carried the step's requests (R163) -/
  exchRun : Bool
  missRaised : Bool
  yoyo : Option Yoyo
  /-- stall ticks of the step by cause (R238, R239) -/
  stalls : List W64
deriving DecidableEq, Repr

/-- One MSI-X vector with its moderator (R85, R86). -/
structure Vec where
  addr : W64
  data : W32
  mask : Bool
  pend : Nat
  pendBit : Bool
  tFirst : W64
  tLast : Option W64
  /-- the DELAY condition is treated as met after an unmask (R87) -/
  unmasked : Bool
  /-- VEC_MOD was written at this tick: the value that governs until the next one (R87) -/
  old : Option (W64 × W64) := none
deriving DecidableEq, Repr

/-- PCI Express function state that the manual's rules use (R85, R355, R382, R383). -/
structure FnSt where
  bme : Bool
  msixEn : Bool
  msixMask : Bool
  cto : Nat
  ctoDisable : Bool
deriving DecidableEq, Repr

/-- The EPOCH_COMMIT in progress (R67 to R72). -/
structure Commit where
  id : CtxId
  begun : W64
  /-- drain-and-switch rather than atomic (R66) -/
  drain : Bool
  affected : List Nat
  /-- the states of the affected partitions before DRAINING (Table 03.4) -/
  before : List (Nat × Nat)
deriving DecidableEq, Repr

/-- What an event says, apart from the ring's own fields (Table 02.9). -/
structure EvRec where
  code : Nat
  island : Nat
  queue : Nat := 0xFFFF
  stepId : W32 := 0
  d0 : Nat := 0
  d1 : Nat := 0
  d2 : Nat := 0
deriving DecidableEq, Repr

/-- The balance an array account ended a period with (R79, R83): its balance register, the period (its boundary time), the balance. -/
structure Final where
  reg : Reg
  period : W64
  bal : W64
deriving DecidableEq, Repr

/-- The Command Processor: queues, contexts, steps, functions, vectors, event rings (chapters 02, 04, 05). -/
structure Cp where
  queues : Tab Nat Queue
  /-- contexts in fetch order -/
  ctxs : List Ctx
  steps : Tab Nat (Option Step)
  nextSid : Nat
  fns : Tab Nat FnSt
  vecs : Tab (Nat × Nat) Vec
  /-- records lost since the last one written, per function (R38, R88) -/
  evLost : Tab Nat Nat
  /-- event records written this period, per tenant (R88) -/
  evWritten : Tab Nat Nat
  commit : Option Commit
  /-- fetch rotation: the group and, per group, the queue last served (R43); group 16 is the PF queues outside every partition -/
  rotGroup : Nat
  rotQueue : Tab Nat Nat
  /-- the CP halted after a lockstep mismatch (R307) -/
  halted : Bool
  /-- registers of EXH counters already advanced this period (R82) -/
  exhSeen : List Reg
  /-- time of the latest period boundary (R73), or of READY before the first -/
  periodStart : W64
  /-- final balances of the periods in which tiles still in flight were dispatched (R79) -/
  finals : List Final
  /-- events whose records wait for a line of their ring under retry, oldest first: their function, and when they occurred (R219) -/
  evHeld : List (Nat × EvRec × W64)
deriving DecidableEq, Repr

/-! ### Chapters 05 and 06: arrays and engines -/

/-- A charge of array time in force: the accounts it was made against (R79, R81). -/
structure Charge where
  tenant : Option Nat
  part : Option Nat
  /-- charged to the partition only, under SPILL -/
  spill : Bool
  /-- the reservation r in array-ns -/
  r : Nat
  /-- the period in which the tile was dispatched (its boundary time) -/
  period : W64
deriving DecidableEq, Repr

/-- One staged output of a tile: a destination address of the command and its bytes (R100); `nib` 1 or 2 when only the
low or the high nibble of the one byte is an output (INT4 elements, R119). -/
structure Staged where
  addr : W64
  bytes : List W8
  nib : Nat := 0
deriving DecidableEq, Repr

/-- The outputs of one SEQ_CHUNK entry in a tile (R245): its number, its rows of Y, and its new state record. -/
structure SeqOut where
  idx : Nat
  y : List Staged
  state : List W8
deriving DecidableEq, Repr

/-- What a tile's conversion counted (R131, R143). -/
structure TileStats where
  amax : W32 := 0
  probe : W32 := 0
  sat : Nat := 0
  nans : Nat := 0
  nonfinite : Bool := false
deriving DecidableEq, Repr

/-- One row of a tile as the array drains it (R126, R130): its accumulators, as FP32 and as INT32 words, and what the gate program reads
besides them. -/
structure TileRow where
  acc : List (W32 × W32)
  gin : List (W32 × W32 × W32)
  elt : List W32
deriving DecidableEq, Repr

/-- The sums the checksum lane forms beside a tile (R130, R131): r and u of its columns, t and u′ of its rows. -/
structure LaneSums where
  r : List Fv := []
  u : List Fv := []
  t : List Fv := []
  u' : List Fv := []
deriving DecidableEq, Repr

/-- Where a stream's bytes come from (Table 11.1): an address of the command's function, an offset of a model's image, or a physical
address of a pool. -/
inductive Src where
  | op (a : W64)
  | model (off : Nat)
  | pool (pa : Nat)
deriving DecidableEq, Repr

/-- What a stream brings for some passes of its tile (R122, R231): `n` pieces of `len` bytes, `stride` apart, wanted from pass `first` on and
freed after pass `last`. -/
structure Group where
  src : Src
  len : Nat
  stride : Nat
  n : Nat
  first : Nat
  last : Nat
deriving DecidableEq, Repr

/-- A stream of a tile (R231, R232): its class (Table 11.1), how it is bounded, its effective window, what it brings in the order of
consumption; the regions fetched and consumed, those it holds (oldest first), and the bytes the array has read. -/
structure Stream where
  cls : Nat
  credit : Bool
  win : Nat
  groups : List Group
  fetched : Nat := 0
  used : Nat := 0
  regs : List Nat := []
  seen : List W8 := []
  /-- stack bytes already charged of the region being filled (R81) -/
  paid : Nat := 0
  /-- ticks it has stalled (Table 11.3) -/
  ticks : Nat := 0
deriving DecidableEq, Repr

/-- Work occupying an array between two boundaries. -/
inductive ArrJob where
  | tile (id : CtxId) (ord attempt : Nat)
  | selftest
deriving DecidableEq, Repr

/-- A tile or array slice in flight (R100, R101). -/
structure Flight where
  job : ArrJob
  start : W64
  charge : Charge
  /-- running ticks so far: the watchdog (R101) and the array charge (R79) -/
  ran : Nat
  /-- every operand staged and every pass run (R96: not a condition of dispatch) -/
  ready : Bool
  streams : List Stream := []
  /-- passes run, and passes in all (R123) -/
  pass : Nat := 0
  passes : Nat := 0
  /-- what the array drained, and what its checksum lane formed -/
  rows : List TileRow := []
  sums : LaneSums := {}
  seqs : List SeqOut := []
  /-- stack bytes already charged of the writes of its commit (R81) -/
  paid : Nat := 0
deriving DecidableEq, Repr

/-- A tile to be dispatched again (R102, R112). -/
structure Due where
  id : CtxId
  ord : Nat
  attempt : Nat
  /-- the array that abandoned it -/
  arr : Nat
  /-- only the same array may take it -/
  same : Bool
  /-- a replay after a droop stop: before any other work (R112) -/
  replay : Bool
deriving DecidableEq, Repr

/-- One matrix array MAa of cell Cn (index 4n + a). -/
structure Arr where
  fly : Option Flight
  /-- a self-test array slice has claimed the array after a mismatch (R110, R306) -/
  claim : Bool
  /-- a self-test slice stopped by a droop is replayed before any other work (R112) -/
  again : Bool
  /-- the step whose tile ended last here (R97, item 3) -/
  lastSid : Option Nat
  /-- the lookahead tile staged for the array (R233), and its streams -/
  look : Option (CtxId × Nat)
  lookStreams : List Stream
deriving DecidableEq, Repr

/-- A slicing engine: the command whose slice it runs, and the owner and the item served last (R109). -/
structure EngSt where
  job : Option CtxId
  last : Nat
  item : Option CtxId
  /-- a Quisto slice in progress: its tenant, the period it began in (its boundary time), and its start (R79) -/
  slice : Option (Nat × W64 × W64)
  /-- the slice in progress is background work: page zeroing or row migration (R109) -/
  bg : Bool
deriving DecidableEq, Repr

/-- A 4 KiB region of a cell's scratchpad (R63, R124): the owner tag, 0 for none, else the owner's function number + 1, and what it holds. -/
structure Region where
  tag : Nat
  bytes : List W8
deriving DecidableEq, Repr

/-- Arrays and engines (chapters 05, 06, 11). -/
structure Engines where
  arrs : Tab Nat Arr
  due : List Due
  eng : Tab Engine EngSt
  /-- the cells' scratchpads by (cell, region) -/
  scratch : Tab (Nat × Nat) Region
  /-- steps that wait for an array while a step with a higher key runs in their partition, and since when (R107) -/
  waitSince : List (Nat × W64)
  /-- instant the present self-test round began, and the arrays it has tested (R84, R305) -/
  roundAt : W64
  roundDone : List Nat
  roundLogged : Bool
deriving DecidableEq, Repr

/-! ### Chapter 10: stacked memory -/

/-- One entry of a function's page map (R210). -/
structure MapEnt where
  valid : Bool
  page : Nat
  sealed : Bool
  part : Nat
  /-- claimed by an allocation that has not installed it yet (R213) -/
  claimed : Bool
deriving DecidableEq, Repr

/-- The state of a page (§10.3). -/
inductive PageSt where
  | free | held | dirty | retired
deriving DecidableEq, Repr

/-- A page: its state, who it counts against, and the claim on it while DIRTY (R212, R213). -/
structure Page where
  st : PageSt
  /-- partition whose quota it counts against, while held or claimed -/
  part : Nat
  /-- owner of a device-managed page: tenant -/
  dev : Option Nat
  /-- (function, map index) that holds or claims it -/
  map : Option (Nat × Nat)
  /-- the command that claims it while DIRTY -/
  claim : Option CtxId
deriving DecidableEq, Repr

/-- A line access under parity retry (R219). -/
structure LineRetry where
  line : Nat
  left : Nat
  write : Bool
deriving DecidableEq, Repr

/-- Stacked memory (chapter 10). -/
structure Mem where
  /-- contents by physical byte address `page · 2^21 + offset`, in canonical form -/
  bytes : List Host.Cell
  pages : Tab Nat Page
  maps : Tab (Nat × Nat) MapEnt
  /-- dirty list of each memory island, oldest first (R64, R216) -/
  dirty : Tab Nat (List Nat)
  /-- poisoned lines, by physical line number (R224) -/
  poison : List Nat
  /-- lines on the channels' poison lists (R225) -/
  plist : List Nat
  /-- stored errors not yet met by a read, or not written back (R222, R223) -/
  errs : List LineErr
  /-- pages whose owner tag or map entry fails its parity (R309) -/
  tagErrs : List Nat
  /-- corrections per sub-page and marked sub-pages since Windup (R227) -/
  subCe : Tab Nat Nat
  marked : List Nat
  /-- scrub position of each channel, a line number within it, and lines read this period (R226) -/
  scrubPos : Tab Nat Nat
  scrubCnt : Tab Nat Nat
  /-- parity failures this period per (channel, lane group) (R221) -/
  laneFail : Tab (Nat × Nat) Nat
  /-- channels quiesced for lane repair -/
  quiesce : List Nat
  retry : List LineRetry
  /-- stack bytes already charged for zeroing the head of an island's dirty list (R79, R81) -/
  zeroPaid : Tab Nat Nat
deriving DecidableEq, Repr
/-! ### Chapter 03: the Toychest -/

/-- Slot life cycle (Table 03.5). -/
inductive SlotSt where
  | empty | loading | resident | zeroing
deriving DecidableEq, Repr

/-- One of the 256 Toychest slots: its state, the model it holds `(tenant, handle)`, and its group: 0 the pooled group,
`p + 1` the private slots of partition `p` (§03.4). -/
structure ToySlot where
  st : SlotSt
  owner : Option (Nat × Nat)
  group : Nat
deriving DecidableEq, Repr

/-- A model of a tenant (R56 to R60): its size, its slots in image order, pin, use count F, last reference. -/
structure Model where
  size : Nat
  slots : List Nat
  resident : Bool
  pinned : Bool
  use : Nat
  lastRef : W64
  /-- the command whose load fills it while LOADING, and what DETAIL [31:16] will report (R57) -/
  loader : Option CtxId
  evicted : Nat
deriving DecidableEq, Repr

/-- Where a model was loaded from, recorded for autoloads (R57): device address and size. -/
structure Source where
  addr : W64
  size : Nat
deriving DecidableEq, Repr

/-- The Toychest (R56). `bytes` holds slot contents by `slot · 2^19 + offset`, canonical, unlisted 0. -/
structure Toy where
  slots : Tab Nat ToySlot
  models : Tab (Nat × Nat) (Option Model)
  sources : Tab (Nat × Nat) (Option Source)
  bytes : List Host.Cell
  /-- period boundaries since the use counts were last halved (R59) -/
  boundaries : Nat
deriving DecidableEq, Repr

/-! ### Chapter 14: fences, the Safety Island -/

/-- The Safety Island's log (R310). -/
structure Safe where
  /-- fault-log entries by index e mod 256: the 32 bytes of Table 14.3 -/
  log : Tab Nat (List W8)
deriving DecidableEq, Repr

/-! ### Registers (chapter 17) -/

/-- A staged lower half of a 64-bit register write, or a latched upper half of a read (R10), by function and register;
`shadow` when staged for the shadow copy of an RWE register. -/
structure HalfKey where
  fn : Nat
  reg : Reg
  shadow : Bool
deriving DecidableEq, Repr

/-- A half of a queue register (by queue and offset) staged or latched. -/
structure QHalfKey where
  fn : Nat
  q : Nat
  off : Nat
deriving DecidableEq, Repr

/-- The register file: values by register over the reset values, shadows of an open epoch (R65), halves (R10). -/
structure RegFile where
  vals : List (Reg × W64)
  shadow : List (Reg × W64)
  staged : List (HalfKey × W32)
  latched : List (HalfKey × W32)
  qStaged : List (QHalfKey × W32)
  qLatched : List (QHalfKey × W32)
  /-- an instant, and the bits of W1C and W1S fields that were set in it: register, instance, bit (R8) -/
  setNow : W64 × List (RegName × Nat × Nat)
  /-- an instant, and the PF's writes in it of registers that a VF can write too, or of queue blocks (R368) -/
  pfNow : W64 × List ((Reg ⊕ (Nat × Nat)) × Nat)
deriving DecidableEq, Repr

/-! ### What the device sends out -/

/-- Traffic that leaves the device; the model's own record of it (assumption log 5). -/
inductive Out where
  /-- a posted write to host memory under the Requester ID of a function (R355) -/
  | hostWrite (fn : Nat) (addr : Nat) (bytes : List W8)
  /-- an MSI-X message of vector `v` of a function (R86) -/
  | msix (fn v : Nat) (addr : W64) (data : W32)
  /-- a completion with data to a read the host made of the device; `poison` marks a poisoned TLP -/
  | readData (fn : Nat) (bytes : List W8) (poison : Bool)
  /-- a flit sent on a Nimeg link: its 320 bytes (Table 09.1) -/
  | flit (link : Nat) (bytes : List W8)
  /-- an answer of the management endpoint -/
  | mgmt (bytes : List W8)
  /-- a completion with Unsupported Request -/
  | unsupported (fn : Nat)
  /-- a completion with Request Retry Status (R343) -/
  | retry (fn : Nat)
  /-- a data register shifted out at TDO -/
  | tdo (bits : W32)
deriving DecidableEq, Repr
/-! ### Chapters 06 and 07: layer records and what a matrix command captures -/

/-- A layer record (Table 07.2). -/
structure LayerRec where
  scale : W32 := 0x3F800000
  scale0 : W32 := 0x3F800000
  satLimit : Nat := 0
  mode : Nat := 0
  freeze : Bool := false
  evt : Bool := false
  win : Nat := 0
  step : Nat := 0
  range : Nat := 0
  headroom : Nat := 0
  inLayer : Nat := 0
  inFollow : Bool := false
  gen : W32 := 0
  lastAmax : W32 := 0
  probeAmax : W32 := 0
  satTotal : W32 := 0
  window : List W32 := [0, 0, 0, 0, 0, 0, 0, 0]
deriving DecidableEq, Repr

/-- A step slot (R142, R146, R147). -/
structure StepSlot where
  layer : Nat
  rec_ : LayerRec
  /-- largest AMAX of the step's commands on the layer, if one committed a tile -/
  contrib : Option W32
  /-- least QMAX (FP32) of the step's commands' OFMTs on the layer -/
  qmax : W32
  /-- a widened output: OUT_ADDR, narrow code, wide code -/
  wide : Option (W64 × Nat × Nat)
deriving DecidableEq, Repr

/-- What a MATMUL, GATE_ONLY or SEQ_CHUNK captured at dispatch and has counted since (R127, R142, R143). -/
structure MatCap where
  /-- format of A in effect, after format follow (R146) -/
  afmt : Nat
  follow : Bool
  layer : Option Nat
  rec_ : LayerRec
  divisor : W32
  prog : List W8
  amax : W32
  probe : W32
  sat : Nat
  nans : Nat
  /-- saturated elements of the first run of a widened command, and of its second run -/
  sat2 : Nat
  retried : Nat
  committedAny : Bool
deriving DecidableEq, Repr

/-- A LAYER_SET waiting for its period boundary (R140). -/
structure PendLayer where
  id : CtxId
  tenant : Nat
  layer : Nat
  image : List W8
deriving DecidableEq, Repr

/-- The pushes made onto a layer record at one tick (R147): the record as it was before them, the Drift updates made, and each push with the
number of its queue, in the order the rule gives. -/
structure TickPush where
  ten : Nat
  layer : Nat
  at_ : W64
  base : LayerRec
  ups : Nat
  list : List (Nat × W32 × W32)
deriving DecidableEq, Repr

/-- Layer records and pending LAYER_SETs (chapter 07). -/
structure Quant where
  recs : Tab (Nat × Nat) LayerRec
  pend : List PendLayer
  caps : Tab CtxId (Option MatCap)
  slots : Tab Nat (List StepSlot)
  pushes : List TickPush
deriving DecidableEq, Repr
/-! ### Chapter 08: embedding tables -/

/-- A table descriptor (Table 08.1). -/
structure Desc where
  dim : Nat
  fmt : Nat
  rowScale : Bool
  t0 : Bool
  promote : Bool
  migrate : Bool
  replicate : Bool
  scale : W32
  rows : Nat
  grain : Nat
  group : Nat
  self : Nat
  members : List Nat
  key : W32
  t1 : Nat
  t2 : Nat
  promo : Nat
  repl : Nat
  t2base : W64
  t3lba : Nat
  drives : Nat
  chans : W64
deriving DecidableEq, Repr

/-- A directory entry (R154): `loc` is the 4 KiB sub-page (page · 512 + k) of the tier T1 copy, when it is not the home place
of a T1 block; `use` the promotion pool's use count (R171). -/
structure BlkDir where
  loc : Option Nat := none
  dirty : Bool := false
  migrating : Bool := false
  version : W64 := 0
  use : Nat := 0
deriving DecidableEq, Repr

/-- A defined table: the shard of rows this device owns (R151 to R157). -/
structure Shard where
  d : Desc
  home : List Nat
  dirPages : List Nat
  promo : List Nat
  repl : List Nat
  /-- the TABLE_RETIRE that has begun, and the commands in flight that named the table then (R151, R158) -/
  retiring : Option (CtxId × List CtxId) := none
  /-- the TABLE_DEFINE whose pages are still being zeroed: the table does not exist yet -/
  defining : Option CtxId := none
  dir : Tab Nat BlkDir := .of {}
  /-- counters of Table 08.5, by order of the table -/
  stats : Tab Nat W64 := .of 0
  /-- tier T1 reads per channel, and per block, in the present and in the last complete window (R173, R174) -/
  chan : Tab Nat Nat := .of 0
  lastChan : Tab Nat Nat := .of 0
  blk : Tab Nat Nat := .of 0
  lastBlk : Tab Nat Nat := .of 0
  skew : W32 := 0
  hot : Nat := 0
  cold : Nat := 0
  /-- requests of each peer per block in the present window (R176): (device, block) -/
  peer : Tab (Nat × Nat) Nat := .of 0
deriving DecidableEq, Repr

/-- A line of a partition's tier T0 row cache (R165): the row by its local index, and when it was last used. -/
structure RowLine where
  part : Nat
  ten : Nat
  tab : Nat
  row : Nat
  bytes : List W8
  used : Nat
  /-- the cell whose slice of the row cache holds it -/
  cell : Nat := 0
deriving DecidableEq, Repr

/-- A replica of a peer's block (R176). -/
structure Replica where
  ten : Nat
  tab : Nat
  dev : Nat
  blk : Nat
  version : W64
  validated : W64
  use : Nat
  /-- its 4 KiB sub-page in the replica pool -/
  loc : Nat
deriving DecidableEq, Repr

/-- Who a row read serves: a gather's position, or an entry of a section of a peer's forward segment. -/
inductive RowFor where
  | gather (gid pos : Nat)
  | serve (sv sec idx : Nat)
deriving DecidableEq, Repr

/-- A row read beyond tier T0: it holds a miss-tracker entry until delivered (R169). -/
structure RowRead where
  k : Nat
  for_ : RowFor
  part : Option Nat
  ten : Nat
  tab : Nat
  row : Nat
  /-- waits on a far fetch of its block -/
  far : Bool
  /-- a row of a replica: the sub-page that holds the replica (R169, R176) -/
  repl : Option Nat := none
deriving DecidableEq, Repr

/-- What waits on a block fetched from a far tier, in attach order (R169): a row read, or a row update of a command. -/
inductive Att where
  | row (k : Nat)
  | upd (id : CtxId) (row : Nat) (bytes : List W8)
deriving DecidableEq, Repr

/-- Kinds of far operations (R170, R181). -/
inductive FarKind where
  | read | write | flush
deriving DecidableEq, Repr

/-- A far-tier request in use (R169 to R172): its index `k`, its operation, and what waits on it. -/
structure FarOp where
  k : Nat
  kind : FarKind
  part : Option Nat
  ten : Nat
  tab : Nat
  blk : Nat
  drive : Nat
  /-- a tier T3 operation on this drive and queue pair -/
  qp : Option Nat
  /-- attempts issued -/
  tries : Nat
  issued : W64
  outstanding : Bool
  /-- the block read, waiting for promotion space, or being written home with PROMOTE = 0 -/
  data : List W8
  atts : List Att
  /-- number of leading attachments, all updates, that the write in progress commits (PROMOTE = 0, R178) -/
  commits : Nat
  /-- a block written whole by TABLE_LOAD: its command (R180) -/
  load : Option (CtxId × Nat)
  /-- the write-back job it belongs to (TABLE_FLUSH, TABLE_RETIRE), else an eviction -/
  job : Option CtxId
  /-- the version of the block that a write-back carries (R171) -/
  seen : W64 := 0
  /-- stack bytes paid of its next access, and whether its staging has been paid for (R76, R79) -/
  paid : Nat := 0
  staged : Bool := false
deriving DecidableEq, Repr

/-- A GATHER_POOL from its begin until its last bag is finalised (R163). -/
structure Gather where
  gid : Nat
  x : Ctx
  offs : List Nat
  next : Nat
  rows : Tab Nat (Option (List W8))
  wts : Tab Nat W32
  skip : List Nat
  /-- remote indices: position, global row, owner device -/
  remote : List (Nat × Nat × Nat)
  fin : List Nat
  cap : MatCap
  done : Bool
  /-- stack bytes paid of the bag, or the accumulators, it is to write next (R79) -/
  paid : Nat := 0
deriving DecidableEq, Repr

/-- The rows a ROW_UPDATE or TABLE_LOAD writes: a list of local rows, or a run. -/
inductive UpdRows where
  | list (l : List Nat)
  | run (first n : Nat)
deriving DecidableEq, Repr

/-- A ROW_UPDATE or TABLE_LOAD under way (R177, R180). -/
structure Upd where
  id : CtxId
  ten : Nat
  tab : Nat
  rows : UpdRows
  next : Nat
  committed : Nat
  /-- its dispatch instant: updates of one row commit in that order (R178) -/
  disp : W64
deriving DecidableEq, Repr

/-- A TABLE_FLUSH or TABLE_RETIRE writing back (R158, R181). -/
structure WbJob where
  id : CtxId
  ten : Nat
  tab : Nat
  todo : List Nat
  out : Nat
  wrote : Nat
  /-- drives a Flush has been issued to (R181) -/
  flushes : Nat
  failed : Option Nat
deriving DecidableEq, Repr

/-- A block move in progress (R175), or planned (`copies` 0). -/
structure Move where
  k : Nat
  ten : Nat
  tab : Nat
  blk : Nat
  src : Nat
  dst : Nat
  version : W64
  copies : Nat
deriving DecidableEq, Repr

/-- A request in a step's Exchange request list (R163, R196). -/
structure Req where
  sid : Nat
  dev : Nat
  gid : Nat
  pos : Nat
  row : Nat
deriving DecidableEq, Repr

/-- An NVMe queue pair as the device keeps it (R359, R360): submission tail, completion head, expected phase, commands
outstanding. -/
structure NvQ where
  tail : Nat := 0
  head : Nat := 0
  phase : Nat := 1
  out : Nat := 0
  /-- identifiers of commands given up as late, whose completions are to be discarded (R172) -/
  late : List Nat := []
deriving DecidableEq, Repr

/-- Embedding state (chapter 08). -/
structure Emb where
  tabs : Tab (Nat × Nat) (Option Shard)
  lines : List RowLine
  /-- count sketch of each partition: (partition, row 0-3, counter) -/
  sketch : Tab (Nat × Nat × Nat) Nat
  /-- period boundaries since the last halving, per partition -/
  decay : Tab Nat Nat
  /-- bytes admitted this period, per partition (R168) -/
  admitted : Tab Nat Nat
  replicas : List Replica
  nextK : Nat
  reads : List RowRead
  far : List FarOp
  gathers : List Gather
  upds : List Upd
  jobs : List WbJob
  moves : List Move
  plan : List Move
  /-- moves and grants made this period (R174, R176) -/
  moved : Nat
  granted : Nat
  /-- period boundaries since the window began (R174) -/
  winCnt : Nat
  /-- a window ended and its loop has not yet run -/
  winDue : Bool
  reqs : List Req
  /-- device-managed pages of each step's request lists, and the requests they have taken (R196) -/
  reqPages : Tab Nat (List Nat)
  /-- NVMe queue pairs by (drive, y), and the pair each drive used last (R360) -/
  nvq : Tab (Nat × Nat) NvQ
  nvTurn : Tab Nat Nat
deriving DecidableEq, Repr
/-! ### Chapter 09: Nimeg links and the Exchange -/

/-- A data flit (Table 09.2), without what the link layer adds (ACK, CRC, parity). -/
structure Flit where
  cls : Nat
  fwd : Bool
  last : Bool
  seq : Nat
  src : Nat
  dst : Nat
  txn : Nat
  off : Nat
  payload : List W8
deriving DecidableEq, Repr

/-- The settings of a lane's equalisation loop (R190): the receiver's peaking and the magnitudes of the transmitter's taps. -/
structure EqSet where
  ctle : Nat := 0
  pre2 : Nat := 0
  pre1 : Nat := 0
  post1 : Nat := 0
deriving DecidableEq, Repr

/-- One lane's equalisation loop (R190, R191): the settings in force, those the loop wants, the trial in rotation, and the measurement. -/
structure Lane where
  ctle : Nat := 0
  pre2 : Nat := 0
  pre1 : Nat := 0
  post1 : Nat := 0
  /-- next trial, 0-7: setting `trial / 2`, up for even and down for odd -/
  trial : Nat := 0
  /-- the trial applied in the present interval, if one was -/
  trying : Option Nat := none
  prevE : Nat := 0
  /-- FEC_CORR at the start of the interval -/
  base : Nat := 0
  /-- the settings wanted: peaking is applied at the next control slot, taps are requested from the partner -/
  goal : EqSet := {}
  /-- the request the partner has not acknowledged yet -/
  sent : Option EqSet := none
  /-- this device's own transmitter taps, and a request of the partner for them to be acknowledged in the next control slot -/
  tx : EqSet := {}
  asked : Option EqSet := none
deriving DecidableEq, Repr

/-- An ABORT or ABORT_ACK message (Table 09.3). -/
structure AbortMsg where
  src : Nat
  dst : Nat
  txn : Nat
  ack : Bool
deriving DecidableEq, Repr

/-- One Nimeg link (R185 to R189): both directions. -/
structure Link where
  /-- credits in hand per virtual channel, and buffer entries freed since the last control flit -/
  credits : Tab Nat Nat := .of 256
  freed : Tab Nat Nat := .of 0
  txSeq : Nat := 0
  rxSeq : Nat := 0
  unacked : List Flit := []
  resend : List Flit := []
  /-- NAK to send in the next control flit -/
  nak : Bool := false
  /-- the SEQ last NAKed by the partner, and how often in succession (R187) -/
  nakSeq : Nat := 0
  nakCnt : Nat := 0
  /-- a flit was rejected and the expected SEQ has not come yet: what follows is discarded (R187) -/
  rejecting : Bool := false
  /-- flits to forward onto this link, oldest first, each with the link it came from (R194) -/
  forward : List (Nat × Flit) := []
  aborts : List AbortMsg := []
  /-- last good control flit: when it came, and its TIME -/
  lastCtl : W64 := 0
  peerTime : W64 := 0
  lanes : Tab Nat Lane := .of {}
  /-- the training under way follows a failure (LNK.RETRAINS) -/
  afterFail : Bool := false
  /-- start of the training, or of the latest examination -/
  trainAt : W64 := 0
  /-- first lane in use when fewer than four are (R189) -/
  lane0 : Nat := 0
  /-- period boundaries since the equalisation interval began (R190) -/
  eqCnt : Nat := 0
  /-- transaction served last in the round-robin among equal keys (R202) -/
  lastTxn : Nat := 0
deriving DecidableEq, Repr

/-- A section of a forward segment as the requester keeps it: its row entries as (gather, position, row), its validations as
(owner's block, version), and the positions each validation answers as (validation, gather, position, row). -/
structure XSec where
  key : W32
  ten : Nat
  tab : Nat
  pitch : Nat
  rows : List (Nat × Nat × Nat)
  vals : List (Nat × W64)
  deps : List (Nat × Nat × Nat × Nat)
deriving DecidableEq, Repr

/-- How a transfer stands (R196, R201, R205). -/
inductive XSt where
  | waiting | live | complete | failed
deriving DecidableEq, Repr

/-- A transfer at the requester (R196). -/
structure Xfer where
  xid : Nat
  sid : Nat
  fn : Nat
  part : Option Nat
  q : Nat
  dev : Nat
  st : XSt
  link : Option Nat
  txn : Nat
  fwd : Bool
  secs : List XSec
  seg : List W8
  sent : Nat
  attempts : Nat
  /-- 0 none, 1 rerouted, 2 resent on the same route -/
  resent : Nat
  /-- row-area flits received, by OFFSET -/
  got : Tab Nat (Option (List W8))
  block : List W8
  blockNext : Nat
  /-- END has arrived -/
  ended : Bool
  refused : List (Nat × Nat)
  cause : Nat
  lastRx : W64
  /-- rows of validated replicas still to be read: section, gather, position, row (R201) -/
  todo : List (Nat × Nat × Nat × Nat) := []
deriving DecidableEq, Repr

/-- An Exchange under way: its step, the command that completes with it, and whether it is the implicit one (R163). -/
structure Exch where
  sid : Nat
  id : CtxId
  implicit : Bool
  begun : W64
  /-- the device and REASON of the first refusal received (R206) -/
  firstRef : Option (Nat × Nat) := none
deriving DecidableEq, Repr

/-- A section a responder serves (R199). -/
structure SSec where
  key : W32
  ten : Nat
  tab : Nat
  pitch : Nat
  rows : List Nat
  vals : List (Nat × Nat)
  /-- the REASON it is refused for; a section with an unknown key has pitch 0 until the layout gives it one -/
  refuse : Option Nat
  got : Tab Nat (Option (List W8))
deriving DecidableEq, Repr

/-- A block of an owned table as a service has read it, with its version at that instant (R199). -/
structure BlkCopy where
  ten : Nat
  tab : Nat
  blk : Nat
  version : W64
  data : List W8
deriving DecidableEq, Repr

/-- A transfer a responder serves (R199). -/
structure Serve where
  sv : Nat
  link : Nat
  src : Nat
  txn : Nat
  fwd : Bool
  arrival : W64
  /-- bytes received and not yet parsed; the header once 64 bytes are in -/
  buf : List W8
  hdr : Option (List W8)
  secs : List SSec
  /-- rows still to be read: (section, entry) -/
  todo : List (Nat × Nat)
  sentRows : List Nat
  block : Option (List W8)
  /-- flits of the block area sent, and who pays for each of them (R203): a tenant, 64 the migration account, 65 nobody -/
  sentBlock : Nat
  payers : List Nat
  /-- the blocks to grant, once they have been chosen: section, block (R176) -/
  grants : Option (List (Nat × Nat))
  /-- LAST of the forward segment has arrived -/
  whole : Bool
  /-- blocks read for validations whose version has moved (R199) -/
  blks : List BlkCopy
deriving DecidableEq, Repr

/-- Links, transfers and services (chapter 09). -/
structure Lnk where
  links : Tab Nat Link
  xfers : List Xfer
  exch : List Exch
  serves : List Serve
  nextX : Nat
  /-- transactions (link, TXN) whose ABORT is not acknowledged yet, and since when (R207) -/
  zombies : List (Nat × Nat × W64)
deriving DecidableEq, Repr
/-! ### Chapter 11: sequence families -/

/-- A family descriptor (Table 11.7). -/
structure FamDesc where
  h : Nat
  p : Nat
  paging : Nat
  streams : Nat
  handle : Nat
  offset : Nat
  poolPages : Nat
  freeTarget : Nat
  base : W64
  chans : W64
deriving DecidableEq, Repr

/-- Slot states (Table 11.10), in the order of their codes. -/
inductive SeqSlotSt where
  | unused | clean | dirty | pagingIn | pagingOut | out
deriving DecidableEq, Repr

/-- A stream slot (R248): its directory entry, its pool entry, its pins, and when it was last marked as used.  `claims` are the
unresolved claims in claim order, `broken` says that one of the present chain resolved unapplied (R255). -/
structure SeqSlot where
  st : SeqSlotSt := .unused
  commit : W32 := 0
  claim : W32 := 0
  entry : Option Nat := none
  pins : List CtxId := []
  used : Nat := 0
  claims : List CtxId := []
  broken : Bool := false
deriving DecidableEq, Repr

/-- A defined family. -/
structure Fam where
  d : FamDesc
  pool : List Nat
  dirPages : List Nat
  slots : Tab Nat SeqSlot := .of {}
  /-- pool entries in use -/
  taken : List Nat := []
  defining : Option CtxId := none
  /-- the SEQ_RETIRE that writes its records back -/
  retiring : Option CtxId := none
deriving DecidableEq, Repr

/-- A SEQ_CHUNK entry (Table 11.9). -/
structure SeqEnt where
  stream : Nat
  seq : W32
  len : Nat
  reset : Bool
deriving DecidableEq, Repr

/-- How an entry of a checked SEQ_CHUNK stands (R255). -/
inductive SeqRes where
  | open_ | applied | unapplied | refused
deriving DecidableEq, Repr

/-- A SEQ_CHUNK from its check until it completes: its entries with their outcomes, and whether its slots are acquired (R250). -/
structure Chunk where
  id : CtxId
  ten : Nat
  fam : Nat
  part : Option Nat
  ents : List (SeqEnt × SeqRes)
  acquired : Bool
  pageIns : Nat
deriving DecidableEq, Repr

/-- A page-in or page-out in progress or waiting to be issued (R250 to R253); `k` is its far-tier request. -/
structure PageOp where
  k : Nat
  out : Bool
  part : Option Nat
  ten : Nat
  fam : Nat
  stream : Nat
  tries : Nat
  issued : W64
  outstanding : Bool
  /-- a record that has come from the host and waits on an account, and the stack bytes paid of the operation (R79, R81) -/
  data : Option (List W8) := none
  paid : Nat := 0
deriving DecidableEq, Repr

/-- A SEQ_TOUCH from its check on (R246): the streams of its list and the records it took then; once begun, the page-ins it issued. -/
structure Touch where
  id : CtxId
  ten : Nat
  fam : Nat
  list : List Nat
  recs : List W8
  begun : Bool := false
  streams : List Nat := []
  n : Nat := 0
deriving DecidableEq, Repr

/-- Sequence state (chapter 11). -/
structure Seq where
  fams : Tab (Nat × Nat) (Option Fam)
  chunks : List Chunk
  ops : List PageOp
  touches : List Touch
  /-- counter of uses, for recency -/
  clock : Nat
deriving DecidableEq, Repr

/-! ### Chapter 12: Intake and the Locale engine -/

/-- A command of family 0x5 whose first slice has started: what it captured, what its units write where that was decided in
the first slice, and how it will complete. -/
structure IntJob where
  id : CtxId
  /-- captured words, in an order of the opcode's own -/
  cap : List Nat
  /-- captured bytes: a frame header, a normalisation, entries of a pillar list -/
  data : List W8
  /-- what each unit writes -/
  plan : List (List (W64 × List W8))
  status : Nat
  detail : W32
deriving DecidableEq, Repr

/-- Intake state (chapter 12): jobs on the three engines, and the decode split loop's measures of the present period (R262). -/
structure Intake where
  jobs : List IntJob
  /-- decode-engine ticks spent on each partition's commands, and ENGINE stall ticks of its contexts on that engine -/
  busy : Tab Nat Nat
  wait : Tab Nat Nat
  /-- partitions whose SPLIT_FLOOR is raised and not yet re-armed -/
  floor : List Nat
deriving DecidableEq, Repr

/-! ### Chapter 13: Quisto -/

/-- A parameter slot (Table 13.3). -/
structure QParam where
  n : Nat
  nlwe : Nat
  l : Nat
  bgLog : Nat
  ksL : Nat
  ksLog : Nat
  primes : List Nat
  /-- the 64 bytes it was set from -/
  bytes : List W8
deriving DecidableEq, Repr

/-- Types of sealed objects (Table 13.1). -/
inductive ObjType where
  | shares | triples | scalar | maskKey
deriving DecidableEq, Repr

/-- What the header of a sealed object records (R277): type, MOD or CURVE, count, ROLE, the counters of R279, whether it has been
completed, and the key generation it is encrypted under.  `base` is the first triple's number. -/
structure ObjHdr where
  type : ObjType
  attr : Nat
  count : Nat
  role : Nat := 0
  base : Nat := 0
  done : Bool
  gen : W32
  nextOut : Nat := 0
  nextIn : Nat := 0
  nextTriple : Nat := 0
  nextOpen : Nat := 0
  nextClose : Nat := 0
deriving DecidableEq, Repr

/-- A key-store slot (R300). -/
structure KeySlot where
  srk : BitVec 256
  gen : Nat
  /-- its CRC and KCV both check -/
  valid : Bool
  /-- it reads as erased -/
  blank : Bool
deriving DecidableEq, Repr

/-- A Quisto command that has begun: what it took from its object headers, and, once its first slice has run, how many
elements were refused and the highest element status (R294). -/
structure QJob where
  id : CtxId
  /-- numbers of the opcode's own: MOD, count, ROLE, first triple of an object -/
  cap : List Nat
  /-- the parameter slots named -/
  pars : List QParam
  started : Bool
  refused : Nat
  st : Nat
deriving DecidableEq, Repr

/-- Quisto state (chapter 13).  Sealed lines are kept as plaintext in `Mem.bytes`, which no path but the sealed-page port
reads (R274); `pgen` and `lgen` give the key generation a page, or a line of it written since, is encrypted under (R275). -/
structure Qst where
  params : Tab (Nat × Nat) (Option QParam)
  /-- object headers by physical line -/
  hdrs : List (Nat × ObjHdr)
  pgen : Tab Nat W32
  lgen : List (Nat × W32)
  jobs : List QJob
  store : Tab Nat KeySlot
  /-- COUNT, and whether the bit at COUNT is marginal -/
  fuse : Nat
  marginal : Bool
  recovery : Nat
  /-- a KEY_UPDATE in progress: its command and the SRK it drew -/
  update : Option (CtxId × BitVec 256)
  nonce : BitVec 128
  /-- generate requests since the unit's DRBG was seeded, and when that was (R295) -/
  reqs : Tab Nat Nat
  seeded : Tab Nat W64
  /-- the unit's latest health failure, and its restarts (R296) -/
  failAt : Tab Nat W64
  restarts : Tab Nat Nat
deriving DecidableEq, Repr

/-! ### Chapter 15: clocks and power -/

/-- An island as the power controller keeps it (R329 to R333).  Sources are numbered as the bits of SOURCES: 0 cap, 1 logic heat, 2 stack
heat, 3 brake, 4 FORCE. -/
structure Isl where
  /-- the frequency in force while the clock runs -/
  freq : Nat := 0
  /-- a rise that waits for the voltage -/
  fTo : Option Nat := none
  /-- supply, in units of 6.25 mV above 0.5 V; the value it slews to; the instant of its latest step -/
  volt : Nat := 40
  vTo : Nat := 40
  vAt : W64 := 0
  /-- the frequency and the supply held by FREEZE -/
  frozen : Option (Nat × Nat) := none
  /-- what each source's condition asks for, what it demands, and since when a lower wish has stood (R331) -/
  want : Tab Nat Nat := .of 0
  dem : Tab Nat Nat := .of 0
  fall : Tab Nat W64 := .of 0
  /-- in a level-3 stop window that began then -/
  win : Option W64 := none
  /-- stopped by the droop detector, by a CLOCK_VOLTAGE fault (R332, R308), since then -/
  droop : Option W64 := none
  fault : Option W64 := none
  /-- the period of the latest POWER_THROTTLE record (its boundary time), and changes unreported since it -/
  rep : Option W64 := none
  unrep : Nat := 0
  /-- a stack-heat request is active since then (R338) -/
  heat : Option W64 := none
deriving DecidableEq, Repr

/-- The power controller (chapter 15). -/
structure Pwr where
  isl : Tab Nat Isl
  /-- the effective instant of the latest cap write, while PENDING -/
  capAt : Option W64
  /-- consecutive intervals: over the cap with every scaled island at its bottom; below the hysteresis; over the cap with level 3 in
  force; at or under the cap -/
  overBot : Nat
  under : Nat
  above : Nat
  met : Nat
  /-- the escalation of R336 is in force -/
  escal : Bool
  /-- a thermal trip: THERMTRIP_N is low -/
  tripped : Bool
  /-- energy not yet in PWR.ENERGY, in nJ -/
  nj : Nat
  /-- the latest interval start -/
  last : Option W64
deriving DecidableEq, Repr

/-! ### Chapter 16: Windup, the host link and management -/

/-- Windup, host-link and management state (chapter 16) outside the registers. -/
structure Win where
  /-- READY has been reached -/
  ready : Bool
  /-- the management endpoint responds: SAFE_START has ended since power-on -/
  mgmtUp : Bool
  /-- KEY_STORE is to follow the first enabling of the PF event ring (R344) -/
  keyNote : Bool
  /-- the latest reset that runs Windup, and the start of the present stage -/
  began : W64
  stageAt : W64
  /-- contents of image slots 0 (A) and 1 (B); `none` while a slot holds the image it left the factory with -/
  flash : Tab Nat (Option (List W8))
  /-- set bits of the fuse thermometer (R346) -/
  svnMin : Nat
  /-- arrays that failed their Windup self-test (R344) -/
  failed : List Nat
  tap : Tap
  /-- held in a test reset -/
  held : Bool
  /-- VF Enable of the PF's SR-IOV capability, PTM Enable of its PTM capability -/
  vfEnable : Bool
  ptmEnable : Bool
  /-- PTM dialogs that failed in a row, and the time of the latest dialog -/
  ptmFails : Nat
  ptmLast : Option W64
  /-- DETAIL0 of the latest HOST_LINK -/
  hostLink : Nat
  /-- uncorrectable errors AER recorded -/
  aerUnc : Nat
  /-- MCTP endpoint ID -/
  eid : Nat
  /-- firmware update: size of the image, bytes transferred, and whether it has been verified -/
  fwLen : Nat
  fwGot : Nat
  fwOk : Bool
  /-- the latest reset was one of the host link or of power: configuration requests are answered with Request Retry Status until READY or
  failure (R343) -/
  rrs : Bool
deriving DecidableEq, Repr

/-! ### The whole state -/

/-- The state of the block. -/
structure State where
  /-- commands waiting, first in, first out -/
  pending : List Instr
  /-- device time base (R5, R18) -/
  now : W64
  /-- the model's own counter of free values handed out (assumption log 3) -/
  freeN : Nat
  /-- what the device has sent, newest first (assumption log 5) -/
  io : List Out
  rf : RegFile
  cp : Cp
  en : Engines
  toy : Toy
  qn : Quant
  mem : Mem
  emb : Emb
  lnk : Lnk
  seq : Seq
  intake : Intake
  qst : Qst
  safe : Safe
  pwr : Pwr
  win : Win
deriving DecidableEq, Repr

/-- A queue at reset: DISABLED, counts 0, LOG2_SIZE 6 (Table 02.12). -/
def Queue.reset : Queue := {}

/-- A function's PCI Express state after a conventional reset: Bus Master Enable and MSI-X Enable clear. -/
def FnSt.reset : FnSt := ⟨false, false, false, 0, false⟩

/-- A vector at reset: masked, no address, moderator empty (R86). -/
def Vec.reset : Vec := ⟨0, 0, true, 0, false, 0, none, false, none⟩

/-- The Command Processor after Windup: every queue DISABLED, no context, no step (R9, R95). -/
def Cp.reset : Cp :=
  { queues := .of Queue.reset, ctxs := [], steps := .of none, nextSid := 0, fns := .of FnSt.reset
    vecs := .of Vec.reset, evLost := .of 0, evWritten := .of 0, commit := none, rotGroup := 0
    rotQueue := .of 0, halted := false, exhSeen := [], periodStart := 0, finals := [], evHeld := [] }

/-- An idle array. -/
def Arr.reset : Arr := ⟨none, false, false, none, none, []⟩

/-- Engines after Windup: idle, every scratchpad region without owner. -/
def Engines.reset : Engines :=
  { arrs := .of Arr.reset, due := [], eng := .of ⟨none, 0, none, none, false⟩, scratch := .of ⟨0, []⟩, waitSince := [], roundAt := 0, roundDone := []
    roundLogged := false }

/-- The Toychest after Windup: every slot EMPTY, no model (Table 03.5). -/
def Toy.reset : Toy := ⟨.of ⟨.empty, none, 0⟩, .of none, .of none, [], 0⟩

/-- Layer records at the resets of Table 07.2. -/
def Quant.reset : Quant := ⟨.of {}, [], .of none, .of [], []⟩

/-- Stacked memory after Windup: every page FREE and zero, every map empty, no poison (§10.8). -/
def Mem.reset : Mem :=
  { bytes := [], pages := .of ⟨.free, 0, none, none, none⟩, maps := .of ⟨false, 0, false, 0, false⟩
    dirty := .of [], poison := [], plist := [], errs := [], tagErrs := [], subCe := .of 0, marked := [], scrubPos := .of 0, scrubCnt := .of 0
    laneFail := .of 0, quiesce := [], retry := [], zeroPaid := .of 0 }

/-- Embedding state after Windup: no table, every sketch counter 0 (§08.8). -/
def Emb.reset : Emb :=
  { tabs := .of none, lines := [], sketch := .of 0, decay := .of 0, admitted := .of 0, replicas := [], nextK := 0
    reads := [], far := [], gathers := [], upds := [], jobs := [], moves := [], plan := [], moved := 0, granted := 0
    winCnt := 0, winDue := false, reqs := [], reqPages := .of []
    nvq := .of {}, nvTurn := .of 0 }

/-- Links after Windup: no transfer, no transaction (§09.11). -/
def Lnk.reset : Lnk := ⟨.of {}, [], [], [], 0, []⟩

/-- Sequence state after Windup: no family (§11.7). -/
def Seq.reset : Seq := ⟨.of none, [], [], [], 0⟩

/-- Intake state after Windup. -/
def Intake.reset : Intake := ⟨[], .of 0, .of 0, []⟩

/-- Quisto state after Windup on a part fresh from the factory (R300): COUNT 0, slot 0 valid with GEN 0, slot 1 blank.  The key, the
nonce and the DRBG state that no rule gives a value stand at 0 (assumption log 11). -/
def Qst.reset : Qst :=
  { params := .of none, hdrs := [], pgen := .of 0, lgen := [], jobs := [], store := ⟨⟨0, 0, false, true⟩, [(0, ⟨0, 0, true, false⟩)]⟩
    fuse := 0, marginal := false, recovery := 0, update := none, nonce := 0, reqs := .of 0, seeded := .of 0
    failAt := .of 0, restarts := .of 0 }

/-- The Safety Island's log at power-up: empty. -/
def Safe.reset : Safe := ⟨.of []⟩

/-- Power state at READY: every island at its nominal clock, no demand, no stop. -/
def Pwr.reset : Pwr :=
  { isl := ⟨{}, (List.range 33).map fun k => (k, { freq := nominalMHz k })⟩, capAt := none, overBot := 0, under := 0, above := 0
    met := 0, escal := false, tripped := false, nj := 0, last := none }

/-- Windup, host and management state at the first READY of a part fresh from the factory; the TAP stands at IDCODE, as IEEE 1149.1 has it after
Test-Logic-Reset (R365, assumption log 13). -/
def Win.reset : Win :=
  { ready := true, mgmtUp := true, keyNote := false, began := 0, stageAt := 0, flash := .of none, svnMin := 0, failed := []
    tap := .idcode, held := false, vfEnable := false, ptmEnable := false, ptmFails := 0, ptmLast := none, hostLink := 0, aerUnc := 0, eid := 0, fwLen := 0, fwGot := 0, fwOk := false, rrs := false }

/-- The register file at reset: every register at its Reset value, no epoch open, nothing staged or latched. -/
def RegFile.reset : RegFile := ⟨[], [], [], [], [], [], (0, []), (0, [])⟩

/-- The state right after reset: Windup has reached READY (R9, R344), nothing pending. -/
def State.reset : State :=
  { pending := [], now := 0, freeN := 0, io := [], rf := .reset, cp := .reset, en := .reset, toy := .reset
    qn := .reset, mem := .reset, emb := .reset, lnk := .reset, seq := .reset, intake := .reset, qst := .reset
    safe := .reset, pwr := .reset, win := .reset }

end Sys2Proof.Machine
end

