-- ==== Sys2Proof/Machine/Ops.lean ====
section
/-! DEFINITION. The named operations over registers, byte memory, page maps, queues and contexts that every
meaning is written with. -/

namespace Sys2Proof.Machine

/-! ### Fields of words -/

/-- Field of `n` bits from bit `lo` of a number. -/
def fld (v lo n : Nat) : Nat := (v >>> lo) % 2 ^ n

/-- Bit `b` of a number. -/
def bit (v b : Nat) : Bool := fld v b 1 == 1

/-- A number with the field of `n` bits from `lo` replaced by `x`. -/
def setFld (v lo n x : Nat) : Nat := v - fld v lo n * 2 ^ lo + (x % 2 ^ n) * 2 ^ lo

/-- 1 for true, 0 for false. -/
def b01 (b : Bool) : Nat := if b then 1 else 0

/-- A word of 32 bits from a number. -/
def w32 (n : Nat) : W32 := BitVec.ofNat 32 n
/-- A word of 64 bits from a number. -/
def w64 (n : Nat) : W64 := BitVec.ofNat 64 n

/-- Ceiling division. -/
def cdiv (a b : Nat) : Nat := if a % b = 0 ∨ b = 0 then a / b else a / b + 1

/-- The larger and the smaller bound by saturation. -/
def sat (m x : Nat) : Nat := if x > m then m else x

/-- The `n` low bytes of a number, little-endian (R3). -/
def toBytes : (n v : Nat) → List W8
  | 0, _ => []
  | n + 1, v => BitVec.ofNat 8 v :: toBytes n (v / 256)

/-- The number that little-endian bytes spell (R3). -/
def ofBytes : List W8 → Nat
  | [] => 0
  | b :: l => b.toNat + 256 * ofBytes l

/-- `n` bytes of a list from offset `o`, missing bytes 0. -/
def sliceB (l : List W8) (o n : Nat) : List W8 := (List.range n).map fun i => (l.drop o).getD i 0

/-- The number at offset `o` of a byte list, `n` bytes wide. -/
def natAt (l : List W8) (o n : Nat) : Nat := ofBytes (sliceB l o n)

/-! ### Association lists with defaults -/

/-- Look a key up in an association list. -/
def assoc? {κ α : Type} [DecidableEq κ] (l : List (κ × α)) (k : κ) : Option α := Tab.look k l

/-- An association list with a key set. -/
def assocSet {κ α : Type} [DecidableEq κ] (l : List (κ × α)) (k : κ) (v : α) : List (κ × α) := (k, v) :: Tab.drop k l

/-! ### Registers -/

/-- The value a register holds (in force). -/
def RegFile.get (f : RegFile) (r : Reg) : W64 :=
  match assoc? f.vals r with
  | some v => v
  | none => regReset r

/-- The register file with a register set. -/
def RegFile.set (f : RegFile) (r : Reg) (v : W64) : RegFile := { f with vals := assocSet f.vals r v }

/-- The value in force of a register. -/
def State.rget (s : State) (r : Reg) : W64 := s.rf.get r

/-- The value in force as a number. -/
def State.rnat (s : State) (n : RegName) (i : Nat := 0) (j : Nat := 0) : Nat := (s.rget ⟨n, i, j⟩).toNat

/-- A field of the value in force. -/
def State.rfld (s : State) (n : RegName) (lo w : Nat) (i : Nat := 0) (j : Nat := 0) : Nat := fld (s.rnat n i j) lo w

/-- A bit of the value in force. -/
def State.rbit (s : State) (n : RegName) (b : Nat) (i : Nat := 0) (j : Nat := 0) : Bool := bit (s.rnat n i j) b

/-- The state with a register set. -/
def State.rset (s : State) (r : Reg) (v : W64) : State := { s with rf := s.rf.set r v }

/-- The state with a register set to a number. -/
def State.rput (s : State) (n : RegName) (i j : Nat) (v : Nat) : State := s.rset ⟨n, i, j⟩ (w64 v)

/-- A 32-bit counter advanced modulo 2^32. -/
def State.radd32 (s : State) (n : RegName) (i j k : Nat) : State :=
  s.rput n i j ((s.rnat n i j + k) % 2 ^ 32)

/-- A 64-bit counter advanced modulo 2^64. -/
def State.radd64 (s : State) (n : RegName) (i j k : Nat) : State :=
  s.rput n i j ((s.rnat n i j + k) % 2 ^ 64)

/-- A field of a register set. -/
def State.rsetFld (s : State) (n : RegName) (lo w x : Nat) (i : Nat := 0) (j : Nat := 0) : State :=
  s.rput n i j (setFld (s.rnat n i j) lo w x)

/-- Bit `b` of a register is noted as set in this cycle (R8). -/
def State.noteSet (s : State) (n : RegName) (i b : Nat) : State :=
  { s with rf := { s.rf with setNow := (s.now, (n, i, b) :: if s.rf.setNow.1 = s.now then s.rf.setNow.2 else []) } }

/-- Bit `b` of a register was set in this cycle (R8). -/
def State.setThis (s : State) (n : RegName) (i b : Nat) : Bool := s.rf.setNow.1 == s.now && s.rf.setNow.2.contains (n, i, b)

/-- Array `k` of the device is fenced, and its ARRAY_FENCED bit is set (R306). -/
def State.fenceArray (s : State) (k : Nat) : State := (s.rsetFld .arrayFenced (k % 4) 1 1 (k / 4)).noteSet .arrayFenced (k / 4) (k % 4)

/-- A signed 64-bit register as an integer (Table 04.5). -/
def State.rint (s : State) (r : Reg) : Int := (s.rget r).toInt

/-- A fresh free value and the state with the counter advanced (assumption log 3). -/
def State.free (s : State) : W64 × State := (Config.freeValue s.freeN, { s with freeN := s.freeN + 1 })

/-! ### Time -/

/-- Ticks from `a` to `b`, modulo 2^64 (R5). -/
def ticks (a b : W64) : Nat := (b - a).toNat

/-- An instant has been reached: modular comparison, so an instant less than 2^63 ticks back lies in the past (R5, §00.10). -/
def reached (now t : W64) : Bool := decide (ticks t now < 2 ^ 63)

/-- A deadline has passed from the tick at which the time base equals it (R94). -/
def State.passed (s : State) (key : W64) : Bool := reached s.now key

/-! ### Islands (R17, R329) -/

/-- The state with the power controller changed. -/
def State.withPwr (s : State) (f : Pwr → Pwr) : State := { s with pwr := f s.pwr }

/-- An island. -/
def State.isl (s : State) (k : Nat) : Isl := s.pwr.isl.get k

/-- The state with an island changed. -/
def State.updIsl (s : State) (k : Nat) (f : Isl → Isl) : State := s.withPwr fun p => { p with isl := p.isl.upd k f }

/-- The level in force: the highest that a source demands (R331). -/
def Isl.level (i : Isl) : Nat := (List.range 5).foldl (fun m j => max m (i.dem.get j)) 0

/-- The island's clock runs: no trip, droop stop, fault stop, stop window or level 4. -/
def State.clockOn (s : State) (k : Nat) : Bool :=
  let i := s.isl k
  !s.pwr.tripped && i.droop.isNone && i.fault.isNone && i.win.isNone && decide (i.level < 4)

/-! ### Byte memory in canonical form -/

/-- A byte of a canonical cell list; unlisted bytes are 0 (R64, assumption log 6). -/
def memGet : List Host.Cell → Nat → W8
  | [], _ => 0
  | (a, b) :: l, k => if a = k then b else memGet l k

/-- A canonical cell list with one byte written; writing 0 removes the entry. -/
def memPut : List Host.Cell → Nat → W8 → List Host.Cell
  | [], k, v => if v = 0 then [] else [(k, v)]
  | (a, b) :: l, k, v =>
    if k < a then (if v = 0 then (a, b) :: l else (k, v) :: (a, b) :: l)
    else if k = a then (if v = 0 then l else (k, v) :: l)
    else (a, b) :: memPut l k v

/-- Bytes written from an address up. -/
def memPuts (m : List Host.Cell) (a : Nat) : List W8 → List Host.Cell
  | [] => m
  | b :: l => memPuts (memPut m a b) (a + 1) l

/-- `n` bytes from an address up. -/
def memGets (m : List Host.Cell) (a n : Nat) : List W8 := (List.range n).map fun i => memGet m (a + i)

/-- A range of bytes made 0. -/
def memZero (m : List Host.Cell) (a n : Nat) : List Host.Cell := m.filter fun e => e.1 < a ∨ a + n ≤ e.1

/-- The canonical form: addresses strictly rising, no entry equal to what an unlisted byte reads as. -/
def memWf : List Host.Cell → Bool
  | [] => true
  | [(_, b)] => b != 0
  | (a, b) :: (a', b') :: l => (b != 0) && decide (a < a') && memWf ((a', b') :: l)

/-! ### Functions, queues, partitions -/

/-- The function number of tenant `t`'s VF; 0 is the PF. -/
def vf (t : Nat) : Nat := t + 1

/-- The tenant of a function, if it is a VF. -/
def tenantOf (fn : Nat) : Option Nat := if fn = 0 then none else some (fn - 1)

/-- The queue of a number. -/
def State.queue (s : State) (q : Nat) : Queue := s.cp.queues.get q

/-- The state with the Command Processor changed. -/
def State.withCp (s : State) (f : Cp → Cp) : State := { s with cp := f s.cp }

/-- The state with one queue changed. -/
def State.updQueue (s : State) (q : Nat) (f : Queue → Queue) : State :=
  s.withCp fun c => { c with queues := c.queues.upd q f }

/-- First and count of a tenant's queue range (Table 02.1). -/
def State.qRange (s : State) (t : Nat) : Nat × Nat := (s.rfld .queueRange 0 14 t, s.rfld .queueRange 16 12 t)

/-- The function that owns a queue (R21). -/
def State.owner (s : State) (q : Nat) : Nat :=
  match (List.range 64).find? fun t => (s.qRange t).1 ≤ q && q < (s.qRange t).1 + (s.qRange t).2 with
  | some t => vf t
  | none => 0

/-- The partition a tenant is bound to (Table 03.1). -/
def State.tenPart (s : State) (t : Nat) : Option Nat :=
  if s.rbit .partition 7 t then some (s.rfld .partition 0 4 t) else none

/-- The partition whose PART.QUEUES range holds a queue (R75). -/
def State.rangePart (s : State) (q : Nat) : Option Nat :=
  (List.range 16).find? fun p => s.rfld .queues 0 14 p ≤ q && q < s.rfld .queues 0 14 p + s.rfld .queues 16 15 p

/-- The partition of a queue: its tenant's, or for a PF queue the one whose range holds it, if any (R74, R75). -/
def State.queuePart (s : State) (q : Nat) : Option Nat :=
  match tenantOf (s.owner q) with
  | some t => s.tenPart t
  | none => s.rangePart q

/-- The owner of a queue runs work: the PF, or a bound tenant (R51). -/
def State.ownerBound (s : State) (q : Nat) : Bool :=
  match tenantOf (s.owner q) with
  | some t => (s.tenPart t).isSome
  | none => true

/-- Tenants bound to a partition. -/
def State.boundTo (s : State) (p : Nat) : List Nat := (List.range 64).filter fun t => s.tenPart t == some p

/-- The state value of a partition (Table 03.3). -/
def State.pstate (s : State) (p : Nat) : Nat := s.rfld .pstate 0 3 p

/-- The partition owns the cell (Table 03.2). -/
def State.cellPart (s : State) (n : Nat) : Option Nat := (List.range 16).find? fun p => s.rbit .cells n p

/-- A partition is isolated (PART.MODE.ISOLATED). -/
def State.isolated (s : State) (p : Nat) : Bool := s.rbit .mode 0 p

/-- INFLIGHT = Q_HEAD − Q_DONE (Table 02.12). -/
def Queue.inflight (q : Queue) : Nat := (q.head - q.done).toNat

/-- The count of the next packet to read: Q_HEAD plus the packets of outstanding reads. -/
def Queue.nextRead (q : Queue) : W32 := q.head + w32 (q.reads.foldl (fun n r => n + r.n) 0)

/-- Ring entries N = 2^k (R23). -/
def Queue.entries (q : Queue) : Nat := 2 ^ q.log2

/-- The cause shown in HOLD_CAUSE: that of the oldest hold, the lowest-numbered among equals (R48). -/
def holdCause (hs : List Hold) : Nat :=
  match hs with
  | [] => 0
  | h :: l => (l.foldl (fun (m : Hold) x =>
      if x.since.toNat < m.since.toNat ∨ (x.since = m.since ∧ x.cause < m.cause) then x else m) h).cause

/-- Q_STATUS.STATE (Table 02.12, R55): DRAINING shows on a RUNNING queue of a partition that drains, switches or resets.  DESIGN CHOICE
(log 58): where several apply, PAUSED shows before HELD, and HELD before DRAINING. -/
def State.qState (s : State) (q : Nat) : Nat :=
  let Q := s.queue q
  match Q.mode with
  | .disabled => 0
  | .faulted => 5
  | .stopping => 6
  | .running =>
    if Q.pause then 2
    else if Q.holds ≠ [] then 3
    else match s.queuePart q with
      | some p => if s.pstate p = 2 ∨ s.pstate p = 3 ∨ s.pstate p = 4 then 4 else 1
      | none => 1

/-! ### Contexts and steps -/

/-- The context of an identity. -/
def State.ctx? (s : State) (id : CtxId) : Option Ctx := s.cp.ctxs.find? fun x => x.id = id

/-- The state with the context of an identity changed. -/
def State.updCtx (s : State) (id : CtxId) (f : Ctx → Ctx) : State :=
  s.withCp fun c => { c with ctxs := c.ctxs.map fun x => if x.id = id then f x else x }

/-- The contexts of a queue, in count order (they are kept in fetch order). -/
def State.qCtxs (s : State) (q : Nat) : List Ctx := s.cp.ctxs.filter fun x => x.id.q = q

/-- A step table entry. -/
def State.step? (s : State) (sid : Nat) : Option Step := s.cp.steps.get sid

/-- The state with a step changed. -/
def State.updStep (s : State) (sid : Nat) (f : Step → Step) : State :=
  s.withCp fun c => { c with steps := c.steps.upd sid (Option.map f) }

/-- The key of a context's step (R93). -/
def State.keyOf (s : State) (x : Ctx) : Nat × Nat × Nat :=
  match s.step? x.sid with
  | some st => (st.key.toNat, st.admitAt.toNat, st.q)
  | none => (2 ^ 64 - 1, 0, x.id.q)

/-- Lexicographic order of keys: the key, then the earlier admission, then the lower queue (R93). -/
def keyLt (a b : Nat × Nat × Nat) : Bool :=
  a.1 < b.1 || (a.1 == b.1 && (a.2.1 < b.2.1 || (a.2.1 == b.2.1 && a.2.2 < b.2.2)))

/-- The operation code of a packet: w0[7:0] (Table 02.4). -/
def opcodeOf (w : List W32) : Nat := fld (w.getD 0 0).toNat 0 8

/-- Word `i` of a packet, as a number. -/
def wordOf (w : List W32) (i : Nat) : Nat := (w.getD i 0).toNat

/-- Two consecutive words, low word first (R31). -/
def addrOf (w : List W32) (i : Nat) : W64 := w64 (wordOf w i + 2 ^ 32 * wordOf w (i + 1))

/-- Operand word of a context. -/
def Ctx.w (x : Ctx) (i : Nat) : Nat := wordOf x.words i
/-- Operand address of a context. -/
def Ctx.a (x : Ctx) (i : Nat) : W64 := addrOf x.words i
/-- Operation code of a context. -/
def Ctx.op (x : Ctx) : Nat := opcodeOf x.words
/-- SUBOP of a context: w0[23:16]. -/
def Ctx.sub (x : Ctx) : Nat := fld (x.w 0) 16 8
/-- Tenant of a context (0 for the PF's, whose commands name none). -/
def Ctx.ten (x : Ctx) : Nat := x.fn - 1

/-! ### Addresses and the page map (R31, R210) -/

/-- SPACE of an address: true for device addresses (R31). -/
def isDev (a : W64) : Bool := a.toNat ≥ 2 ^ 63
/-- Bits [62:0] of an address. -/
def offOf (a : W64) : Nat := a.toNat % 2 ^ 63

/-- The bytes of a page: 2 MiB. -/
def pageSize : Nat := 2 ^ 21

/-- The entry of a function's page map that covers a device address. -/
def State.mapEnt (s : State) (fn a : Nat) : MapEnt := s.mem.maps.get (fn, a / pageSize)

/-- One byte's device address lies in the function's pages. -/
def State.devOk (s : State) (fn a : Nat) : Bool := decide (a < 2 ^ 36) && (s.mapEnt fn a).valid

/-- Every 2 MiB unit an extent touches passes a test of its entry. -/
def State.units (s : State) (fn a n : Nat) (p : MapEnt → Bool) : Bool :=
  n == 0 || (decide (a + n ≤ 2 ^ 36) &&
    (List.range ((a + n - 1) / pageSize - a / pageSize + 1)).all fun i => p (s.mem.maps.get (fn, a / pageSize + i)))

/-- An extent lies within the function's pages (R210). -/
def State.extOk (s : State) (fn a n : Nat) : Bool := s.units fn a n fun e => e.valid

/-- An extent touches a sealed page. -/
def State.extSealed (s : State) (fn a n : Nat) : Bool := !(s.units fn a n fun e => !e.sealed)

/-- Physical byte address of a device address. -/
def State.phys (s : State) (fn a : Nat) : Nat := pageSize * (s.mapEnt fn a).page + a % pageSize

/-- Channel of a physical byte address: 768 pages per channel (Table 10.1). -/
def chanOf (pa : Nat) : Nat := pa / pageSize / 768

/-- Memory island of a page. -/
def pageIsland (p : Nat) : Nat := p / 768 / 8

/-- A line reads as poisoned: marked, on the poison list, in a page whose owner tag or map entry fails its parity, or in a FAULTED channel (R224,
R225, R309). -/
def State.linePoison (s : State) (line : Nat) : Bool :=
  s.mem.poison.contains line || s.mem.plist.contains line || s.mem.tagErrs.contains (line / 32768) || s.rbit .chanState 16 (line / 32768 / 768)

/-- Why an access by a command fails. -/
inductive Fail where
  /-- the page left the function's map: ST_RANGE (R215) -/
  | range
  /-- a poisoned line: the fault policy (R224) -/
  | poison (line : Nat)
  /-- the host link returned no data, or the access could not be issued (R354) -/
  | host
  /-- the access waits, under a cause of Table 11.4: 1 its island's clock is stopped (R17), 2 its line is under a parity retry, or its channel
  quiesced for lane repair (R219, R221), 4 its model is not resident -/
  | held (cause : Nat)
deriving DecidableEq, Repr

/-- Why accesses to a line wait, if they do: the clock of its memory island is stopped (R17), a retry of it is pending, or its channel is
quiesced for lane repair (R219, R221). -/
def State.heldCause (s : State) (line : Nat) : Option Nat :=
  if !s.clockOn (16 + line / 32768 / 768 / 8) then some 1
  else if s.mem.retry.any (fun r => r.line == line) || s.mem.quiesce.contains (line / 32768 / 768) then some 2
  else none

/-- Physical lines that an extent of a function touches, in order. -/
def State.linesOf (s : State) (fn a n : Nat) : List Nat :=
  if n = 0 then [] else (List.range ((a + n - 1) / 64 - a / 64 + 1)).map fun i => s.phys fn ((a / 64 + i) * 64) / 64

/-- First poisoned line that an extent of a function touches. -/
def State.firstPoison (s : State) (fn a n : Nat) : Option Nat := (s.linesOf fn a n).find? s.linePoison

/-- Why an access to an extent of a function waits, if it does. -/
def State.extHeld (s : State) (fn a n : Nat) : Option Nat := (s.linesOf fn a n).findSome? s.heldCause

/-- A read of device memory by a function. -/
def State.devRead (s : State) (fn a n : Nat) : Except Fail (List W8) :=
  if !s.extOk fn a n then .error .range
  else match s.extHeld fn a n, s.firstPoison fn a n with
    | some c, _ => .error (.held c)
    | none, some l => .error (.poison l)
    | none, none => .ok ((List.range n).map fun i => memGet s.mem.bytes (s.phys fn (a + i)))

/-- The function may issue requests on the host link (R354, R355). -/
def State.hostUp (s : State) (fn : Nat) : Bool := (s.cp.fns.get fn).bme

/-- The byte the host link returned for a host bus address. -/
def hostGet (h : HostData) (a : Nat) : Option W8 :=
  match h.find? fun g => g.addr ≤ a && a < g.addr + g.bytes.length with
  | some g => g.bytes[a - g.addr]?
  | none => none

/-- A read of host memory: the bytes the command carries, or a failed read (R354). -/
def State.hostRead (s : State) (fn : Nat) (h : HostData) (a n : Nat) : Except Fail (List W8) :=
  if !s.hostUp fn then .error .host
  else if !s.clockOn 28 then .error (.held 1)
  else match (List.range n).mapM fun i => hostGet h (a + i) with
    | some l => .ok l
    | none => .error .host

/-- A read through an address operand of a function. -/
def State.opRead (s : State) (fn : Nat) (h : HostData) (a : W64) (n : Nat) : Except Fail (List W8) :=
  if isDev a then s.devRead fn (offOf a) n else s.hostRead fn h (offOf a) n

/-- The state with memory changed. -/
def State.withMem (s : State) (f : Mem → Mem) : State := { s with mem := f s.mem }

/-- One write of bytes within a line: a whole line replaces poison, part of a poisoned line stores nothing (R224). -/
def State.lineWrite (s : State) (pa : Nat) (bs : List W8) : Except Fail State :=
  let line := pa / 64
  match s.heldCause line with
  | some c => .error (.held c)
  | none =>
  if s.mem.tagErrs.contains (line / 32768) then .error (.poison line)
  else if s.rbit .chanState 16 (chanOf pa) then .ok s
  else if bs.length = 64 then
    .ok (s.withMem fun m =>
      { m with
        bytes := memPuts m.bytes pa bs
        errs := m.errs.filter (fun e => e.line != line)
        poison := m.poison.filter (fun l => l != line)
        plist := m.plist.filter (fun l => l != line) })
  else if s.linePoison line || s.mem.errs.contains ⟨line, true⟩ then .error (.poison line)
  else .ok (s.withMem fun m => { m with bytes := memPuts m.bytes pa bs })

/-- Device writes in ascending address order, line by line; the state keeps what was written before a failure (R224). -/
def State.devWriteGo : (fuel : Nat) → State → (fn a : Nat) → List W8 → State × Option Fail
  | 0, s, _, _, _ => (s, none)
  | _ + 1, s, _, _, [] => (s, none)
  | k + 1, s, fn, a, bs =>
    let n := 64 - a % 64
    if !s.devOk fn a then (s, some .range)
    else match s.lineWrite (s.phys fn a) (bs.take n) with
      | .error e => (s, some e)
      | .ok s' => State.devWriteGo k s' fn (a + n) (bs.drop n)

/-- A write of bytes at a device address of a function. -/
def State.devWrite (s : State) (fn a : Nat) (bs : List W8) : State × Option Fail :=
  State.devWriteGo (bs.length + 1) s fn a bs

/-- A posted write to host memory leaves the device (R355). -/
def State.send (s : State) (o : Out) : State := { s with io := o :: s.io }

/-- A write through an address operand of a function. -/
def State.opWrite (s : State) (fn : Nat) (a : W64) (bs : List W8) : State × Option Fail :=
  if isDev a then s.devWrite fn (offOf a) bs
  else if !s.hostUp fn then (s, some .host)
  else if !s.clockOn 28 then (s, some (.held 1))
  else (if bs = [] then s else s.send (.hostWrite fn (offOf a) bs), none)

/-- A range of device bytes made zero, page piece by page piece. -/
def State.devZeroGo : (fuel : Nat) → State → (fn a n : Nat) → State × Option Fail
  | 0, s, _, _, _ => (s, none)
  | k + 1, s, fn, a, n =>
    if n = 0 then (s, none)
    else if !s.devOk fn a then (s, some .range)
    else
      let m := min n (pageSize - a % pageSize)
      let pa := s.phys fn a
      let inside (l : Nat) : Bool := decide (pa ≤ l * 64) && decide (l * 64 + 64 ≤ pa + m)
      if !s.clockOn (16 + chanOf pa / 8) then (s, some (.held 1))
      else if s.mem.retry.any (fun r => decide (pa < r.line * 64 + 64 ∧ r.line * 64 < pa + m)) ∨ s.mem.quiesce.contains (chanOf pa) then
        (s, some (.held 2))
      else if s.mem.tagErrs.contains (pa / pageSize) then (s, some (.poison (pa / 64)))
      else if s.rbit .chanState 16 (chanOf pa) then State.devZeroGo k s fn (a + m) (n - m)
      else State.devZeroGo k (s.withMem fun x =>
        { x with
          bytes := memZero x.bytes pa m
          errs := x.errs.filter (fun e => !inside e.line)
          poison := x.poison.filter (fun l => !inside l)
          plist := x.plist.filter (fun l => !inside l) }) fn (a + m) (n - m)

/-- Zeros written over a device range in ascending order (R217). -/
def State.devZero (s : State) (fn a n : Nat) : State × Option Fail := State.devZeroGo (n / pageSize + 2) s fn a n

/-- Several writes in order; the first failure ends them. -/
def State.opWrites (s : State) (fn : Nat) : List (W64 × List W8) → State × Option Fail
  | [] => (s, none)
  | (a, bs) :: l =>
    match s.opWrite fn a bs with
    | (s', none) => State.opWrites s' fn l
    | (s', some e) => (s', some e)

end Sys2Proof.Machine
end

