-- ==== Sys2Proof/Machine/Flags.lean ====
section
/-! DEFINITION. Status codes, DETAIL values, and the layouts of completion records, event records and fault-log
entries (chapters 02, 14, 18). -/

namespace Sys2Proof.Machine

/-! ### Status codes (Table 18.3) -/
abbrev stDone : Nat := 0x00
abbrev stWidened : Nat := 0x01
abbrev stCoarsened : Nat := 0x02
abbrev stLate : Nat := 0x03
abbrev stStale : Nat := 0x04
abbrev stRefused : Nat := 0x10
abbrev stBadPacket : Nat := 0x11
abbrev stRange : Nat := 0x12
abbrev stNotOnCurve : Nat := 0x13
abbrev stOrder : Nat := 0x14
abbrev stNoResource : Nat := 0x15
abbrev stFault : Nat := 0x20
abbrev stTornDown : Nat := 0x21
abbrev stPartReset : Nat := 0x22
abbrev stFlr : Nat := 0x23
abbrev stDeviceReset : Nat := 0x24
abbrev stSealedDenied : Nat := 0x30

/-- DETAIL of ST_BAD_PACKET: first offending word, its lowest offending bit, the reason (Table 02.8). -/
def badDetail (word bit_ reason : Nat) : W32 := w32 (word + bit_ * 16 + reason * 512)

/-- The lowest set bit of a number below `n` bits; 0 if none. -/
def lowBit : (n v : Nat) → Nat
  | 0, _ => 0
  | n + 1, v => if v % 2 = 1 ∨ v = 0 then 0 else 1 + lowBit n (v / 2)

/-- DETAIL of ST_FAULT by the fault policy (R313): class, island, array, ordinal or slice number. -/
def faultDetail (cls island arr ord : Nat) : W32 := w32 (cls % 256 + island % 64 * 256 + arr % 4 * 16384 + ord % 65536 * 65536)

/-! ### The completion record (Table 02.7) -/

/-- PHASE of the record at count c in a ring of 2^k entries: ((c >> k) & 1) XOR 1 (R25). -/
def phaseOf (c : W32) (k : Nat) : Nat := 1 - fld c.toNat k 1

/-- The 16 bytes of a completion record (Table 02.7). -/
def recordBytes (status phase evt tag : Nat) (c epoch detail : W32) (time : W64) : List W8 :=
  toBytes 4 (status % 256 + phase % 2 * 256 + evt % 2 * 512 + tag % 65536 * 65536) ++
  toBytes 4 (c.toNat % 65536 + epoch.toNat % 65536 * 65536) ++ toBytes 4 detail.toNat ++ toBytes 4 time.toNat

/-! ### Event records (Table 02.9) -/

/-- The 32 bytes of an event record (Table 02.9). -/
def eventBytes (e : EvRec) (phase lost lostCount : Nat) (time : W64) : List W8 :=
  toBytes 4 (e.code % 65536 + phase % 2 * 65536 + lost % 2 * 131072 + e.island % 64 * 16777216) ++
  toBytes 4 (e.queue % 65536 + sat 65535 lostCount * 65536) ++ toBytes 4 e.stepId.toNat ++
  toBytes 4 e.d0 ++ toBytes 4 e.d1 ++ toBytes 4 e.d2 ++ toBytes 8 time.toNat

/-! ### Fault-log entries (Table 14.3) -/

/-- What a fault-log entry says, apart from time and entry number. -/
structure LogRec where
  cls : Nat
  island : Nat
  action : Nat
  late : Bool := false
  queue : Nat := 0xFFFF
  tenant : Nat := 0xFF
  part : Nat := 0xFF
  stepId : W32 := 0
  loc : Nat := 0
  detail : Nat := 0
deriving DecidableEq, Repr

/-- A class of a dangerous kind (Table 14.1): every class but 6, 7, 8 and 9. -/
def dangerous (cls : Nat) : Bool := !(cls == 6 || cls == 7 || cls == 8 || cls == 9)

/-- The 32 bytes of a fault-log entry (Table 14.3). -/
def logBytes (l : LogRec) (time : W64) (seq : Nat) : List W8 :=
  toBytes 8 time.toNat ++ toBytes 1 l.cls ++ toBytes 1 l.island ++ toBytes 1 l.action ++
  toBytes 1 (b01 (dangerous l.cls) + 2 * b01 l.late) ++ toBytes 2 l.queue ++ toBytes 1 l.tenant ++ toBytes 1 l.part ++
  toBytes 4 l.stepId.toNat ++ toBytes 4 l.loc ++ toBytes 4 l.detail ++ toBytes 4 seq

/-- The 16 bytes of a yo-yo record (Table 05.5). -/
def yoyoBytes (y : Yoyo) : List W8 :=
  toBytes 4 y.cmdCount.toNat ++ toBytes 4 y.nextTile.toNat ++ toBytes 4 y.stepId.toNat ++
  toBytes 4 (y.queue % 16384 + 16384 + b01 y.rt * 32768 + y.part % 16 * 65536 + y.reason % 8 * 1048576 +
    b01 y.late * 8388608 + y.losses % 256 * 16777216)

end Sys2Proof.Machine
end

