-- ==== Sys2Proof/Machine/Events.lean ====
section
/-! DEFINITION. Vector causes, event records and the fault log (R38, R85 to R88, R310, R311). -/

namespace Sys2Proof.Machine

/-- The state with one vector changed. -/
def State.updVec (s : State) (fn v : Nat) (f : Vec → Vec) : State :=
  s.withCp fun c => { c with vecs := c.vecs.upd (fn, v) f }

/-- A vector cause: counted in pending, its pending bit set, t_first noted for the first (R85, R86). -/
def State.cause (s : State) (fn v : Nat) : State :=
  s.updVec fn v fun x =>
    { x with pend := x.pend + 1, pendBit := true, tFirst := if x.pend = 0 then s.now else x.tFirst }

/-- Base address form of a ring register: SPACE and a 4 KiB aligned address (R40). -/
def ringAddr (b : W64) : W64 := w64 (b.toNat - b.toNat % 4096)

/-- A ring address with an offset added to its address part. -/
def addrAdd (a : W64) (o : Nat) : W64 := w64 (a.toNat + o)

/-- Writes a ring record for a function: all but its first four bytes, and then those, in a second write (R34, R37).  Host memory is
reached only while the function may issue; a write covers part of its line, so a poisoned line fails it (R42), and a line under a parity retry
holds it (R219). -/
def State.ringWrite (s : State) (fn : Nat) (a : W64) (bs : List W8) : State × Option Fail :=
  match s.opWrite fn (addrAdd a 4) (bs.drop 4) with
  | (_, some e) => (s, some e)
  | (t, none) => match t.opWrite fn a (bs.take 4) with
    | (u, none) => (u, none)
    | (_, some e) => (s, some e)

/-- One entry written into the fault log, and counted (R310). -/
def State.logPut (s : State) (l : LogRec) : State :=
  let e := s.rnat .logHead
  let s1 := { s with safe := { s.safe with log := s.safe.log.set (e % 256) (logBytes l s.now e) } }
  let s2 := (s1.radd32 .logHead 0 0 1).radd32 .classCount l.cls 0 1
  if l.late then s2.radd32 .lateCount 0 0 1 else s2

/-- A PCI Express error is logged with class 9 and reported (R311, R354). -/
def State.logPcie (s : State) : State := (s.logPut { cls := 9, island := 28, action := 0 }).cause 0 33

/-- The error of a ring write that could not be issued to host memory (R354, R355). -/
def State.logWrite (s : State) (a : W64) : State := if isDev a then s else s.logPcie

/-- Writes one event record into the ring of a function, of an event that occurred at `at_` (R38, R39): the cap of R88 is the caller's.  A
record whose line is held waits, and is the next to be written (R219); one whose write fails clears ENABLE and is lost (R39). -/
def State.putEvent (s : State) (fn : Nat) (e : EvRec) (at_ : W64) : State :=
  let k := s.rfld .evqCtrl 8 5 fn
  let tail := s.rnat .evqTail fn
  let lost := s.cp.evLost.get fn
  let a := addrAdd (ringAddr (s.rget ⟨.evqBase, fn, 0⟩)) (32 * (tail % 2 ^ k))
  match s.ringWrite fn a (eventBytes e (1 - fld tail k 1) (b01 (lost ≠ 0)) lost at_) with
  | (s', none) =>
    let s2 := (s'.radd32 .evqTail fn 0 1).withCp fun c =>
      { c with evLost := c.evLost.set fn 0, evWritten := c.evWritten.upd fn (· + 1) }
    s2.cause fn (s.rfld .evqCtrl 16 5 fn)
  | (s', some (.held _)) => s'.withCp fun c => { c with evHeld := (fn, e, at_) :: c.evHeld }
  | (s', some _) =>
    (((s'.logWrite a).rsetFld .evqCtrl 0 1 0 fn).radd32 .evqLost fn 0 1).withCp fun c => { c with evLost := c.evLost.upd fn (· + 1) }

/-- The record of an event goes to a function's ring (R38, R88): lost on a full or disabled ring, capped per period for a tenant. -/
def State.eventAt (s : State) (fn : Nat) (e : EvRec) (at_ : W64) : State :=
  let full := (s.rnat .evqTail fn + 2 ^ 32 - s.rnat .evqHead fn) % 2 ^ 32 ≥ 2 ^ s.rfld .evqCtrl 8 5 fn
  if !s.rbit .evqCtrl 0 fn || full then
    (s.radd32 .evqLost fn 0 1).withCp fun c => { c with evLost := c.evLost.upd fn (· + 1) }
  else match tenantOf fn with
    | some t =>
      let cap := s.rfld .tenEvqCap 0 16 t
      if cap ≠ 0 ∧ cap ≤ s.cp.evWritten.get fn then
        (s.radd32 .evqCapped t 0 1).withCp fun c => { c with evLost := c.evLost.upd fn (· + 1) }
      else s.putEvent fn e at_
    | none => s.putEvent fn e at_

/-- An event for a function's ring; behind one that waits for its line, it waits too (R219).  DESIGN CHOICE (log 60): an event that occurs
while the CP is halted is neither written nor counted as lost. -/
def State.event (s : State) (fn : Nat) (e : EvRec) : State :=
  if s.cp.halted then s
  else if s.cp.evHeld.any fun w => w.1 == fn then s.withCp fun c => { c with evHeld := c.evHeld ++ [(fn, e, s.now)] }
  else s.eventAt fn e s.now

/-- Events that waited for a line are written in their order, as far as no line holds them again (R219, R220). -/
def State.evFlush (s : State) : State :=
  s.cp.evHeld.foldl (fun t w =>
    if t.cp.evHeld.any fun v => v.1 == w.1 then t.withCp fun c => { c with evHeld := c.evHeld ++ [w] }
    else t.eventAt w.1 w.2.1 w.2.2) (s.withCp fun c => { c with evHeld := [] })

/-- An event of chapter 14 whose code the manual does not give: the high byte names the subsystem (R37), the low
byte is free (assumption log 7).  Kinds: 0 SAFETY_FAULT, 1 TORN_DOWN, 2 PARTITION_RESET. -/
def code14 (kind : Nat) : Nat := 0x1400 + (Config.eventCodeLow kind).toNat

/-- The Safety Island writes one fault-log entry (R310), counts it, and reports it (R311); the record's ISLAND and details are free
(assumption log 7). -/
def State.logFault (s : State) (l : LogRec) : State :=
  let s3 := s.logPut l
  if dangerous l.cls then
    let (v0, s4) := s3.free
    let (v1, s5) := s4.free
    let (v2, s6) := s5.free
    (s6.event 0 { code := code14 0, island := v2.toNat / 2 ^ 32 % 64, queue := l.queue, stepId := l.stepId, d0 := v0.toNat % 2 ^ 32,
                  d1 := v1.toNat % 2 ^ 32, d2 := v2.toNat % 2 ^ 32 }).cause 0 32
  else s3.cause 0 33

/-- A message of a vector may be sent: not masked, a valid address, Bus Master Enable set (R85, R86). -/
def State.vecOpen (s : State) (fn v : Nat) : Bool :=
  let x := s.cp.vecs.get (fn, v)
  let f := s.cp.fns.get fn
  !x.mask && !f.msixMask && f.msixEn && f.bme && x.addr ≠ 0

/-- Sends the message of a vector now (R86): t_last becomes now, pending 0. -/
def State.msixNow (s : State) (fn v : Nat) : State :=
  let x := s.cp.vecs.get (fn, v)
  (s.send (.msix fn v (w64 (x.addr.toNat - x.addr.toNat % 4)) x.data)).updVec fn v fun y =>
    { y with pend := 0, pendBit := false, tLast := some s.now, unmasked := false }

/-- The settings a moderator goes by: VEC_MOD, of which a write takes effect at the next tick (R87). -/
def State.vecMod (s : State) (fn v : Nat) : Nat :=
  match (s.cp.vecs.get (fn, v)).old with
  | some (t, w) => if t = s.now then w.toNat else s.rnat .vecMod fn v
  | none => s.rnat .vecMod fn v

/-- The moderator's conditions on time and count (R86, R87); GAP and DELAY are in units of 100 ns. -/
def State.vecDue (s : State) (fn v : Nat) : Bool :=
  let x := s.cp.vecs.get (fn, v)
  let count := fld (s.vecMod fn v) 0 8
  let delay := fld (s.vecMod fn v) 8 12 * 100
  let gap := fld (s.vecMod fn v) 20 12 * 100
  decide (1 ≤ x.pend) &&
  (match x.tLast with
    | none => true
    | some t => decide (gap ≤ ticks t s.now)) &&
  (x.unmasked || decide (max count 1 ≤ x.pend) || decide (delay ≤ ticks x.tFirst s.now))

/-- One evaluation of a vector's moderator (R86). -/
def State.moderate (s : State) (fn v : Nat) : State :=
  if s.vecOpen fn v && s.vecDue fn v then s.msixNow fn v else s

end Sys2Proof.Machine
end

