-- ==== Sys2Proof/Machine/Fp.lean ====
section
/-! DEFINITION. The number formats of Table 07.1, exact arithmetic on their values, and rounding to nearest with ties to
even (R115, R126, R135 to R137). -/

namespace Sys2Proof.Machine

/-- A floating-point encoding: `mb` mantissa bits, `eb` exponent bits, bias, and whether the top exponent is special as in
IEEE (E4M3 has one NaN code and no infinity). -/
structure FFmt where
  mb : Nat
  eb : Nat
  bias : Nat
  ieee : Bool
  /-- the encoding of the largest finite value -/
  maxBits : Nat
  /-- the canonical NaN (R137) -/
  nanBits : Nat
deriving DecidableEq, Repr

def fE4M3 : FFmt := ⟨3, 4, 7, false, 0x7E, 0x7F⟩
def fE5M2 : FFmt := ⟨2, 5, 15, true, 0x7B, 0x7E⟩
def fBF16 : FFmt := ⟨7, 8, 127, true, 0x7F7F, 0x7FC0⟩
def fFP16 : FFmt := ⟨10, 5, 15, true, 0x7BFF, 0x7E00⟩
def fFP32 : FFmt := ⟨23, 8, 127, true, 0x7F7FFFFF, 0x7FC00000⟩

/-- The floating-point encoding of a format code (Table 06.3); codes 0, 1 and 7 are integers. -/
def ffmt (code : Nat) : FFmt :=
  if code = 2 then fE4M3 else if code = 3 then fE5M2 else if code = 4 then fBF16 else if code = 5 then fFP16 else fFP32

/-- A format code is an integer format. -/
def isIntFmt (code : Nat) : Bool := code == 0 || code == 1 || code == 7

/-- Size of an element in bits. -/
def fmtBits (code : Nat) : Nat :=
  if code = 0 then 4 else if code = 1 ∨ code = 2 ∨ code = 3 then 8 else if code = 4 ∨ code = 5 then 16 else 32

/-- Two's complement value of `n` bits. -/
def signedOf (n v : Nat) : Int := if v % 2 ^ n < 2 ^ (n - 1) then (v % 2 ^ n : Nat) else (v % 2 ^ n : Nat) - (2 ^ n : Nat)

/-- An integer as a value. -/
def ofInt (i : Int) : Fv := .fin (decide (i < 0)) i.natAbs 0

/-- Decoding of a floating-point encoding (Table 07.1). -/
def FFmt.decode (f : FFmt) (v : Nat) : Fv :=
  let m := v % 2 ^ f.mb
  let e := (v / 2 ^ f.mb) % 2 ^ f.eb
  let neg := decide ((v / 2 ^ (f.mb + f.eb)) % 2 = 1)
  if f.ieee ∧ e = 2 ^ f.eb - 1 then (if m = 0 then .inf neg else .nan)
  else if !f.ieee ∧ e = 2 ^ f.eb - 1 ∧ m = 2 ^ f.mb - 1 then .nan
  else if e = 0 then .fin neg m (1 - (f.bias : Int) - f.mb)
  else .fin neg (2 ^ f.mb + m) ((e : Int) - f.bias - f.mb)

/-- Decoding of an element of a format code. -/
def decodeFmt (code v : Nat) : Fv :=
  if isIntFmt code then ofInt (signedOf (fmtBits code) v) else (ffmt code).decode v

/-- Decoding of an FP32 word. -/
def f32 (v : W32) : Fv := fFP32.decode v.toNat

/-- m / 2^s rounded to nearest, ties to even. -/
def roundShift (m s : Nat) : Nat :=
  let q := m / 2 ^ s
  let r := m % 2 ^ s
  if s = 0 then m
  else if 2 ^ (s - 1) < r ∨ (r = 2 ^ (s - 1) ∧ q % 2 = 1) then q + 1 else q

/-- Magnitude bits of m · 2^e rounded once to an encoding, exponents unbounded above: a result above `maxBits` is past the
largest finite value. -/
def FFmt.roundMag (f : FFmt) (m : Nat) (e : Int) : Nat :=
  if m = 0 then 0
  else
    let top : Int := Nat.log2 m + e
    let emin : Int := 1 - (f.bias : Int) - f.mb
    let q : Int := max (top - f.mb) emin
    let mant := if q ≤ e then m * 2 ^ (e - q).toNat else roundShift m (q - e).toNat
    if q = emin then mant else ((q - emin).toNat) * 2 ^ f.mb + mant

/-- Rounds a value to FP32 as IEEE binary32 does; NaN becomes the canonical NaN (R137). -/
def toF32 : Fv → W32
  | .nan => 0x7FC00000
  | .inf neg => if neg then 0xFF800000 else 0x7F800000
  | .fin neg m e =>
    let b := fFP32.roundMag m e
    w32 ((if 0x7F800000 ≤ b then 0x7F800000 else b) + (if neg then 2 ^ 31 else 0))

/-- A sum, exact, with the sign of a zero sum as IEEE rounds to nearest. -/
def Fv.add (a b : Fv) : Fv :=
  match a, b with
  | .nan, _ => .nan
  | _, .nan => .nan
  | .inf s, .inf t => if s = t then .inf s else .nan
  | .inf s, _ => .inf s
  | _, .inf t => .inf t
  | .fin s m e, .fin t n k =>
    if m = 0 ∧ n = 0 then .fin (s && t) 0 0
    else
      let q := min e k
      let x : Int := (if s then -1 else 1) * (m * 2 ^ (e - q).toNat : Nat) + (if t then -1 else 1) * (n * 2 ^ (k - q).toNat : Nat)
      .fin (decide (x < 0)) x.natAbs q

/-- A product, exact (R136). -/
def Fv.mul (a b : Fv) : Fv :=
  match a, b with
  | .nan, _ => .nan
  | _, .nan => .nan
  | .inf s, .inf t => .inf (s != t)
  | .inf s, .fin t n _ => if n = 0 then .nan else .inf (s != t)
  | .fin s m _, .inf t => if m = 0 then .nan else .inf (s != t)
  | .fin s m e, .fin t n k => .fin (s != t) (m * n) (e + k)

/-- Negation. -/
def Fv.neg : Fv → Fv
  | .nan => .nan
  | .inf s => .inf (!s)
  | .fin s m e => .fin (!s) m e

/-- A quotient to more than 64 significant bits with a sticky bit below: rounding it once to at most 53 bits rounds the exact
quotient. -/
def Fv.div (a b : Fv) : Fv :=
  match a, b with
  | .nan, _ => .nan
  | _, .nan => .nan
  | .inf _, .inf _ => .nan
  | .inf s, .fin t _ _ => .inf (s != t)
  | .fin s _ _, .inf t => .fin (s != t) 0 0
  | .fin s m e, .fin t n k =>
    if n = 0 then (if m = 0 then .nan else .inf (s != t))
    else if m = 0 then .fin (s != t) 0 0
    else
      let sh := 70 + Nat.log2 n
      let q := m * 2 ^ sh / n
      let st := if m * 2 ^ sh % n = 0 then 0 else 1
      .fin (s != t) (2 * q + st) (e - k - sh - 1)

/-- Strict order of values; NaN compares false, zeros compare equal. -/
def Fv.lt (a b : Fv) : Bool :=
  match a, b with
  | .nan, _ => false
  | _, .nan => false
  | .inf s, .inf t => s && !t
  | .inf s, _ => s
  | _, .inf t => !t
  | .fin s m e, .fin t n k =>
    let q := min e k
    let x : Int := (if s then -1 else 1) * (m * 2 ^ (e - q).toNat : Nat)
    let y : Int := (if t then -1 else 1) * (n * 2 ^ (k - q).toNat : Nat)
    decide (x < y)

/-- Absolute value. -/
def Fv.abs : Fv → Fv
  | .nan => .nan
  | .inf _ => .inf false
  | .fin _ m e => .fin false m e

/-- The value is NaN. -/
def Fv.isNan : Fv → Bool
  | .nan => true
  | _ => false

/-- The value is finite. -/
def Fv.isFin : Fv → Bool
  | .fin .. => true
  | _ => false

/-- The sign bit. -/
def Fv.sign : Fv → Bool
  | .nan => false
  | .inf s => s
  | .fin s _ _ => s

/-- The greater of two values, where +0 is greater than −0 and a NaN prevails (R161). -/
def Fv.max2 (a b : Fv) : Fv :=
  if a.isNan || b.isNan then .nan
  else if a.lt b then b
  else if b.lt a then a
  else if a.sign then b else a

/-- FP32 addition with one rounding. -/
def addF (a b : W32) : W32 := toF32 ((f32 a).add (f32 b))
/-- FP32 multiplication with one rounding. -/
def mulF (a b : W32) : W32 := toF32 ((f32 a).mul (f32 b))
/-- FP32 division with one rounding. -/
def divF (a b : W32) : W32 := toF32 ((f32 a).div (f32 b))
/-- FP32 fused multiply-add with one rounding. -/
def fmaF (a b c : W32) : W32 := toF32 (((f32 a).mul (f32 b)).add (f32 c))
/-- FP32 subtraction with one rounding. -/
def subF (a b : W32) : W32 := toF32 ((f32 a).add (f32 b).neg)
/-- The greater FP32 word by value. -/
def maxF (a b : W32) : W32 := if (f32 a).lt (f32 b) then b else a
/-- The smaller FP32 word by value. -/
def minF (a b : W32) : W32 := if (f32 b).lt (f32 a) then b else a
/-- The largest magnitude seen so far, NaN left out (R143). -/
def amaxF (m v : W32) : W32 :=
  let x := (f32 v).abs
  if x.isNan then m else if (f32 m).lt x then toF32 x else m

/-- An FP32 word is positive, normal and finite. -/
def posNormal (v : W32) : Bool := decide (0x00800000 ≤ v.toNat) && decide (v.toNat < 0x7F800000)

/-- The result of converting one element (R137): bits, saturated, counted as a NaN element. -/
structure Conv where
  bits : Nat
  sat : Bool
  nan : Bool
deriving DecidableEq, Repr

/-- The integer nearest to a value, ties to even. -/
def roundInt (m : Nat) (e : Int) : Nat := if 0 ≤ e then m * 2 ^ e.toNat else roundShift m (-e).toNat

/-- Conversion of an FP32 value to a format with a positive divisor (R137). -/
def convertTo (code : Nat) (d v : W32) : Conv :=
  let z := (f32 v).div (f32 d)
  if code = 6 then ⟨v.toNat, false, false⟩
  else if code = 0 ∨ code = 1 then
    let q := if code = 0 then 7 else 127
    let b := fmtBits code
    match z with
    | .nan => ⟨0, false, true⟩
    | .inf s => ⟨if s then 2 ^ b - q else q, true, false⟩
    | .fin s m e =>
      let i := roundInt m e
      let j := sat q i
      ⟨if s ∧ j ≠ 0 then 2 ^ b - j else j, decide (q < i), false⟩
  else
    let f := ffmt code
    let sb (s : Bool) := if s then 2 ^ (f.mb + f.eb) else 0
    match z with
    | .nan => ⟨f.nanBits, false, false⟩
    | .inf s => ⟨f.maxBits + sb s, true, false⟩
    | .fin s m e =>
      let b := f.roundMag m e
      ⟨sat f.maxBits b + sb s, decide (f.maxBits < b), false⟩

/-- QMAX of a format as an FP32 word (§07.2). -/
def qmaxF (code : Nat) : W32 :=
  if code = 0 then toF32 (ofInt 7) else if code = 1 then toF32 (ofInt 127)
  else toF32 ((ffmt code).decode (ffmt code).maxBits)

/-! ### Gate functions (Table 06.8) -/

/-- 1 and 0.5 as FP32 words. -/
def oneF : W32 := 0x3F800000

/-- Fractional bits of the fixed-point numbers in which the reference functions are computed, and the number 1. -/
def fixBits : Nat := 400
def fixOne : Nat := 2 ^ fixBits

/-- The magnitude of a finite value in fixed point. -/
def Fv.fix : Fv → Nat
  | .fin _ m e => if 0 ≤ e + fixBits then m * 2 ^ (e + fixBits).toNat else m / 2 ^ (-(e + fixBits)).toNat
  | _ => 0

/-- `n` terms of 1 − r/k (1 − r/(k+1) (…)): at k = 1 the series of e^(−r). -/
def expTail (r : Nat) : (n k : Nat) → Nat
  | 0, _ => fixOne
  | n + 1, k => fixOne - r * expTail r n (k + 1) / (k * fixOne)

/-- A number squared `n` times. -/
def squares : (n : Nat) → Nat → Nat
  | 0, x => x
  | n + 1, x => squares n (x * x / fixOne)

/-- e^(−t). -/
def expNeg (t : Nat) : Nat := if 200 * fixOne ≤ t then 0 else squares 10 (expTail (t / 1024) 80 1)

/-- `n` terms of 1 + y/k (1 + y/(k+2) (…)). -/
def oddTail (y : Nat) : (n k : Nat) → Nat
  | 0, _ => fixOne
  | n + 1, k => fixOne + y * oddTail y n (k + 2) / (k * fixOne)

/-- 1 / √(2π). -/
def gaussOne : Nat := 398942280401432677939946059934381868475858631164934657665925829670657925899301838501252333 * fixOne / 10 ^ 90

/-- 1 / (1 + e^(−x)) for x = ±t. -/
def sigmoidRef (neg : Bool) (t : Nat) : Nat :=
  let e := expNeg t
  (if neg then e else fixOne) * fixOne / (fixOne + e)

/-- tanh t. -/
def tanhRef (t : Nat) : Nat :=
  let e := expNeg (2 * t)
  (fixOne - e) * fixOne / (fixOne + e)

/-- (1 + erf(x / √2)) / 2 for x = ±t: one half and the density times t + t³/3 + t⁵/15 + … -/
def normRef (neg : Bool) (t : Nat) : Nat :=
  let half := fixOne / 2
  let d := if 14 * fixOne ≤ t then half
    else
      let y := t * t / fixOne
      min half (gaussOne * expNeg (y / 2) / fixOne * (t * oddTail y 400 3 / fixOne) / fixOne)
  if neg then half - d else half + d

/-- A fixed-point number as a value. -/
def ofFix (n : Nat) : Fv := .fin false n (-(fixBits : Int))

/-- A free result `r` held within `b` of a reference value and within a range (R128): outside them the reference rounded to FP32 stands. -/
def heldTo (ref : Fv) (b lo hi : Fv) (r : W32) : W32 :=
  let a := f32 (toF32 ref)
  let v := f32 r
  if v.isNan || b.lt (v.add a.neg).abs || v.lt lo || hi.lt v then toF32 ref else r

/-- 2^(−k) × max(1, |x|), the error bounds of SILU and GELU. -/
def wideBound (k : Int) (x : Fv) : Fv := (Fv.fin false 1 (-k)).mul (if (ofInt 1).lt x.abs then x.abs else ofInt 1)

/-- The rank of a finite FP32 word among the finite values, from the most negative up. -/
def rankF (v : W32) : Nat := if v.toNat < 2 ^ 31 then 0x7F800000 + v.toNat else 0xFF7FFFFF - v.toNat

/-- The code that a monotone function of ranks gives at rank `x`: its bits from the highest down, each decided by where the free function
passes from the lower half of the codes left to the upper; `a` and `b` bound the ranks that have come this way. -/
def cutCode (x : Nat) : (k node a b : Nat) → Nat
  | 0, node, _, _ => node
  | k + 1, node, a, b =>
    let t := max a (min b (Config.sigmoidCut k node))
    if x < t then cutCode x k (2 * node) a t else cutCode x k (2 * node + 1) t b

/-- The least FP32 word that is not below a non-negative value, and the greatest not above it. -/
def ceilF (v : Fv) : W32 :=
  let c := toF32 v
  if (f32 c).lt v then c + 1 else c
def floorF (v : Fv) : W32 :=
  let c := toF32 v
  if v.lt (f32 c) then c - 1 else c

/-- SIGMOID: exactly 0.5 at 0, its limits at the infinities, elsewhere within 2⁻¹³ of its reference, in [0, 1], and monotone: a free monotone
function held between bounds that are monotone themselves (R128). -/
def sigmoidF (v : W32) : W32 :=
  match f32 v with
  | .nan => 0x7FC00000
  | .inf s => if s then 0 else oneF
  | .fin s m e =>
    if m = 0 then 0x3F000000
    else
      let a := f32 (toF32 (ofFix (sigmoidRef s (Fv.fin s m e).fix)))
      let b := Fv.fin false 1 (-13)
      let low := a.add b.neg
      let lo := maxF (if low.sign then 0 else ceilF low) (if s then 0 else 0x3F000000)
      let hi := minF (floorF (a.add b)) (if s then 0x3F000000 else oneF)
      let r := w32 (cutCode (rankF v) 31 0 0 (2 ^ 32))
      if r.toNat < lo.toNat then lo else if hi.toNat < r.toNat then hi else r

/-- TANH: odd exactly, 0 at 0, its limits at the infinities, elsewhere within 2⁻¹² of its reference and in [−1, 1] (R128). -/
def tanhF (v : W32) : W32 :=
  match f32 v with
  | .nan => 0x7FC00000
  | .inf s => if s then 0xBF800000 else oneF
  | .fin s m e =>
    if m = 0 then v
    else
      let r := heldTo (ofFix (tanhRef (Fv.fin s m e).fix)) (.fin false 1 (-12)) (ofInt (-1)) (ofInt 1)
        (Config.gateFn 1 (w32 (v.toNat % 2 ^ 31)))
      if s then r ^^^ 0x80000000 else r

/-- SILU: its limits at the infinities, elsewhere within 2⁻¹³ × max(1, |x|) of its reference (R128). -/
def siluF (v : W32) : W32 :=
  match f32 v with
  | .nan => 0x7FC00000
  | .inf s => if s then 0x80000000 else 0x7F800000
  | .fin s m e =>
    let x := Fv.fin s m e
    heldTo (x.mul (ofFix (sigmoidRef s x.fix))) (wideBound 13 x) (.inf true) (.inf false) (Config.gateFn 2 v)

/-- GELU: its limits at the infinities, elsewhere within 2⁻¹¹ × max(1, |x|) of its reference (R128). -/
def geluF (v : W32) : W32 :=
  match f32 v with
  | .nan => 0x7FC00000
  | .inf s => if s then 0x80000000 else 0x7F800000
  | .fin s m e =>
    let x := Fv.fin s m e
    heldTo (x.mul (ofFix (normRef s x.fix))) (wideBound 11 x) (.inf true) (.inf false) (Config.gateFn 3 v)

/-- RELU: max(x, +0); a NaN stays NaN. -/
def reluF (v : W32) : W32 := if (f32 v).isNan then 0x7FC00000 else if (f32 v).sign then 0 else v

end Sys2Proof.Machine
end

