-- ==== Sys2Proof/Machine/Layers.lean ====
section
/-! DEFINITION. Layer records: their 64-byte layout, the checks of an image, and the Drift loop (R139, R140, R147, R148). -/

namespace Sys2Proof.Machine

/-- A layer record of a tenant. -/
def State.layerRec (s : State) (t layer : Nat) : LayerRec := s.qn.recs.get (t, layer)

/-- The state with a layer record changed. -/
def State.updLayer (s : State) (t layer : Nat) (f : LayerRec → LayerRec) : State :=
  { s with qn := { s.qn with recs := s.qn.recs.upd (t, layer) f } }

/-- The RW half of a record as a number, bits [127:0] of Table 07.2. -/
def LayerRec.rw (r : LayerRec) : Nat :=
  r.scale.toNat + r.scale0.toNat * 2 ^ 32 + r.satLimit % 65536 * 2 ^ 64 + r.mode % 4 * 2 ^ 80 + b01 r.freeze * 2 ^ 82 +
  b01 r.evt * 2 ^ 83 + r.win % 8 * 2 ^ 84 + r.step % 16 * 2 ^ 88 + r.range % 8 * 2 ^ 92 + r.headroom % 256 * 2 ^ 96 +
  r.inLayer % 1024 * 2 ^ 104 + b01 r.inFollow * 2 ^ 114

/-- The 64 bytes of a record (Table 07.2). -/
def LayerRec.bytes (r : LayerRec) : List W8 :=
  toBytes 16 r.rw ++ toBytes 4 r.gen.toNat ++ toBytes 4 r.lastAmax.toNat ++ toBytes 4 r.probeAmax.toNat ++
  toBytes 4 r.satTotal.toNat ++ ((List.range 8).map fun i => toBytes 4 (r.window.getD i 0).toNat).flatten

/-- A record with the RW fields of an image. -/
def LayerRec.withImage (r : LayerRec) (b : List W8) : LayerRec :=
  let v := ofBytes (b.take 16)
  { r with
    scale := w32 v
    scale0 := w32 (v / 2 ^ 32)
    satLimit := fld v 64 16
    mode := fld v 80 2
    freeze := bit v 82
    evt := bit v 83
    win := fld v 84 3
    step := fld v 88 4
    range := fld v 92 3
    headroom := fld v 96 8
    inLayer := fld v 104 10
    inFollow := bit v 114 }

/-- The reserved bits of an image: 87, 95 and [127:115]. -/
def imageReserved : Nat := 2 ^ 87 + 2 ^ 95 + (2 ^ 13 - 1) * 2 ^ 115

/-- What an image breaks, as bit and reason (R140).  The bit is that within its 32-bit word (Table 02.8). -/
def imageBad (layer : Nat) (b : List W8) : Option (Nat × Nat) :=
  let v := ofBytes (b.take 16)
  let r : LayerRec := LayerRec.withImage {} b
  if v &&& imageReserved ≠ 0 then some (lowBit128 (v &&& imageReserved) % 32, 1)
  else if !posNormal r.scale then some (0, 7)
  else if !posNormal r.scale0 then some (0, 7)
  else if r.mode = 3 then some (16, 7)
  else if r.mode = 2 ∧ r.step = 0 then some (24, 7)
  else if r.inFollow ∧ r.inLayer = layer then some (18, 7)
  else none
where
  /-- lowest set bit of a 128-bit number -/
  lowBit128 (n : Nat) : Nat := ((List.range 128).find? fun i => bit n i).getD 0

/-- The image applied at a boundary (R140): RW fields written, GEN advanced, statistics zeroed. -/
def LayerRec.apply (r : LayerRec) (b : List W8) : LayerRec :=
  { (r.withImage b) with
    gen := r.gen + 1
    lastAmax := 0
    probeAmax := 0
    satTotal := 0
    window := [0, 0, 0, 0, 0, 0, 0, 0] }

/-- An FP32 power of two. -/
def pow2F (e : Int) : W32 := toF32 (.fin false 1 e)

/-- The new SCALE of one Drift update (R148); `none` when nothing was observed. -/
def driftScale (r : LayerRec) (qmax : W32) : Option W32 :=
  let m := (r.window.take (r.win + 1)).foldl (fun a b => maxF a b) 0
  if m = 0 then none
  else
    let h := toF32 (.fin false (64 + r.headroom) (-6))
    let rr := toF32 (.fin false (16 + r.step) (-4))
    let t := divF (mulF m h) qmax
    let s1 := minF (maxF t (divF r.scale rr)) (mulF r.scale rr)
    some (minF (maxF s1 (mulF r.scale0 (pow2F (-(r.range : Int))))) (mulF r.scale0 (pow2F r.range)))

/-- One contribution pushed onto a record, and the Drift update it makes unless the loop is frozen (R147, R148); answers the updates made. -/
def LayerRec.push (frozen : Bool) (a : LayerRec × Nat) (p : Nat × W32 × W32) : LayerRec × Nat :=
  let r := { a.1 with window := p.2.1 :: a.1.window.take 7 }
  match (if frozen then none else driftScale r p.2.2) with
  | none => (r, a.2)
  | some v => ({ r with scale := v }, a.2 + 1)

/-- The pushes of a tick with one more, by global queue number (R147). -/
def addPush (p : Nat × W32 × W32) : List (Nat × W32 × W32) → List (Nat × W32 × W32)
  | [] => [p]
  | o :: l => if p.1 < o.1 then p :: o :: l else o :: addPush p l

/-- A contribution of queue `q` is pushed onto a layer's record (R147).  Pushes made in one tick stand in the order of their queues: with one
more, the record's window and scale are those of all of them made in that order from where the tick found it. -/
def State.driftOnto (s : State) (t layer q : Nat) (c qmax : W32) : State :=
  let r := s.layerRec t layer
  let frozen := r.freeze || s.rbit .quantCtrl 0
  let here (p : TickPush) : Bool := p.ten == t && p.layer == layer && p.at_ == s.now && p.base.gen == r.gen
  let old := (s.qn.pushes.find? here).getD ⟨t, layer, s.now, r, 0, []⟩
  let list := addPush (q, c, qmax) old.list
  let (r', n) := list.foldl (LayerRec.push frozen) (old.base, 0)
  let s1 := (s.updLayer t layer fun r => { r with window := r'.window, scale := r'.scale }).radd32 .quantDrift t 0 (2 ^ 32 + n - old.ups)
  { s1 with qn := { s1.qn with
      pushes := { old with ups := n, list := list } :: s1.qn.pushes.filter fun p => p.at_ == s.now && !here p } }

/-- One step slot's contribution at the STEP_END of its step (R147): discarded and counted, or pushed. -/
def State.driftSlot (s : State) (t q : Nat) (ended : Bool) (k : StepSlot) : State :=
  if k.rec_.mode ≠ 2 then s
  else match k.contrib with
    | none => s.radd32 .quantDriftLost t 0 1
    | some c =>
      if ended || (s.layerRec t k.layer).gen != k.rec_.gen then s.radd32 .quantDriftLost t 0 1
      else s.driftOnto t k.layer q c k.qmax

/-- The pushes of a step whose STEP_END record is written (R147). -/
def State.driftPush (s : State) (fn sid : Nat) : State :=
  match s.step? sid with
  | some st => (s.qn.slots.get sid).foldl (fun t k => t.driftSlot (fn - 1) st.q st.ended.isSome k) s
  | none => s

end Sys2Proof.Machine
end

