-- ==== Sys2Proof/Machine/SeqSt.lean ====
section
/-! DEFINITION. Stream slots: claims, pins and their resolution (R248 to R251, R255). -/

namespace Sys2Proof.Machine

/-- The state with sequence state changed. -/
def State.withSeq (s : State) (f : Seq → Seq) : State := { s with seq := f s.seq }

/-- The state with one family changed. -/
def State.updFam (s : State) (t f : Nat) (g : Fam → Fam) : State :=
  s.withSeq fun q => { q with fams := q.fams.upd (t, f) (Option.map g) }

/-- The state with one slot changed. -/
def State.updSeqSlot (s : State) (t f k : Nat) (g : SeqSlot → SeqSlot) : State :=
  s.updFam t f fun m => { m with slots := m.slots.upd k g }

/-- Record size RS, the 4 KiB sub-pages of a record, and the resident slots RN (R241). -/
def FamDesc.rs (d : FamDesc) : Nat := cdiv (8 * d.h * d.p) 4096 * 4096
def FamDesc.subs (d : FamDesc) : Nat := d.rs / 4096
def FamDesc.rn (d : FamDesc) : Nat := d.poolPages * 512 / d.subs

/-- The pool entry of a slot is given back. -/
def Fam.release (m : Fam) (k : Nat) : Fam :=
  match (m.slots.get k).entry with
  | some e => { m with taken := m.taken.filter (· ≠ e), slots := m.slots.upd k fun z => { z with entry := none } }
  | none => m

/-- One entry of a command resolves (R255): its claim and its pin go; applied, COMMIT becomes SEQ + 1; unapplied, later claims of
the chain are refused; with no claim left, CLAIM is set to COMMIT.  A slot with no pin left that holds no record gives its
reserved space back. -/
def Fam.resolve (m : Fam) (id : CtxId) (e : SeqEnt) (applied : Bool) : Fam :=
  let m1 : Fam :=
    { m with
      slots := m.slots.upd e.stream fun z =>
        let cl := z.claims.erase id
        let co := if applied then e.seq + 1 else z.commit
        { z with
          claims := cl, pins := z.pins.erase id, commit := co
          claim := if cl = [] then co else z.claim
          broken := if cl = [] then false else z.broken || !applied } }
  let z := m1.slots.get e.stream
  if z.pins = [] ∧ (z.st = .unused ∨ z.st = .out) then m1.release e.stream else m1

/-- The checked SEQ_CHUNK of a context. -/
def State.chunk? (s : State) (id : CtxId) : Option Chunk := s.seq.chunks.find? fun c => c.id = id

/-- A SEQ_CHUNK that completes: every entry not yet resolved resolves unapplied, and its touch, if it is a SEQ_TOUCH, is
forgotten (R255, R315). -/
def State.seqEnd (s : State) (id : CtxId) : State :=
  let s0 := s.withSeq fun q => { q with touches := q.touches.filter fun t => t.id ≠ id }
  match s0.chunk? id with
  | none => s0
  | some c =>
    let s1 := (c.ents.filter fun e => e.2 = .open_).foldl (fun t e => t.updFam c.ten c.fam fun m => m.resolve id e.1 false) s0
    s1.withSeq fun q => { q with chunks := q.chunks.filter fun k => k.id ≠ id }

/-- The family a command of chapter 11 names. -/
def namesFam (x : Ctx) : Option Nat := if 0x40 ≤ x.op ∧ x.op ≤ 0x43 then some (fld (x.w 2) 0 8) else none

end Sys2Proof.Machine
end

