-- ==== Sys2Proof/Machine/Record.lean ====
section
/-! DEFINITION. Completing a command: its status, its step's counts, and the writing of completion records in count
order (R25, R34, R42, R47). -/

namespace Sys2Proof.Machine

/-! ### In-flight bounds (R48 to R50) -/

/-- Contexts in use by a partition (`none`: PF queues of no partition), packets of outstanding reads and units promised to queues whose
hold has ended (R48) included. -/
def State.ctxUsed (s : State) (p : Option Nat) : Nat :=
  (s.cp.ctxs.filter fun x => x.part = p).length +
  (s.cp.queues.ents.foldl (fun n e => if s.queuePart e.1 = p then e.2.reads.foldl (fun m r => m + r.n) (n + e.2.grant) else n) 0)

/-- Units of the shared pool of contexts: the bound less every reservation (R50). -/
def State.ctxPool (s : State) : Nat :=
  4096 - (List.range 16).foldl (fun n p => n + s.rfld .inflightRsv 0 13 p) 0

/-- Contexts a partition may still take: the rest of its reservation, and the free units of the pool (R50). -/
def State.ctxAvail (s : State) (p : Option Nat) : Nat :=
  let excess := (List.range 16).foldl (fun n k => n + (s.ctxUsed (some k) - s.rfld .inflightRsv 0 13 k)) (s.ctxUsed none)
  (match p with
    | some k => s.rfld .inflightRsv 0 13 k - s.ctxUsed p
    | none => 0) + (s.ctxPool - excess)

/-- A hold begins on a queue (R48), counted for its partition (R49); a cause already in force changes nothing. -/
def State.hold (s : State) (q cause : Nat) : State :=
  if (s.queue q).holds.any fun h => h.cause = cause then s
  else
    let s1 := s.updQueue q fun Q => { Q with holds := Q.holds ++ [{ cause := cause, since := s.now }] }
    match s.queuePart q with
    | some p => s1.radd32 .bpEpisodes p cause 1
    | none => s1

/-- The hold of one cause on a queue ends. -/
def State.unhold (s : State) (q cause : Nat) : State :=
  s.updQueue q fun Q => { Q with holds := Q.holds.filter fun h => h.cause ≠ cause }

/-- Of the queues held on a cause that a test admits, the one whose hold began first (R48). -/
def State.oldestHeld (s : State) (cause : Nat) (p : Nat → Bool) : Option Nat :=
  (s.cp.queues.ents.foldl (fun (m : Option (Nat × Nat)) e =>
    match e.2.holds.find? (fun h => h.cause = cause) with
    | some h => if p e.1 then (match m with
        | some (_, t) => if h.since.toNat < t then some (e.1, h.since.toNat) else m
        | none => some (e.1, h.since.toNat)) else m
    | none => m) none).map (·.1)

/-- Free contexts go to the held queues they serve, in the order in which their holds began, one to each: the hold on cause 2 ends, and the
unit is kept for the queue's next read (R48). -/
def State.serveHeld : (fuel : Nat) → State → State
  | 0, s => s
  | n + 1, s =>
    match s.oldestHeld 2 (fun k => 0 < s.ctxAvail (s.queuePart k)) with
    | some k => State.serveHeld n ((s.unhold k 2).updQueue k fun Q => { Q with grant := 1 })
    | none => s

/-- Contexts have been freed, or reservations moved: every held queue that one serves takes it (R48). -/
def State.release (s : State) : State := State.serveHeld s.cp.queues.ents.length s

/-- After a record freed a context: the queue itself leaves a hold on cause 1, and free contexts go to held queues (R48). -/
def State.freed (s : State) (q : Nat) : State :=
  (if (s.queue q).inflight < 64 then s.unhold q 1 else s).release

/-! ### Queue faults (R42) -/

/-- The event QUEUE_FAULTED on the ring of the queue's owner (Table 02.10). -/
def State.queueFaultedEvent (s : State) (q cause : Nat) (a : W64) : State :=
  s.event (s.owner q) { code := 0x0203, island := 29, queue := q, d0 := cause, d1 := a.toNat % 2 ^ 32,
                        d2 := a.toNat / 2 ^ 32 }

/-- A queue goes to FAULTED with a cause, and the event is raised (R42). -/
def State.faultQueue (s : State) (q cause : Nat) (a : W64) : State :=
  (s.updQueue q fun Q => { Q with mode := .faulted, cause := cause, reads := [], grant := 0 }).release.queueFaultedEvent q cause a

/-! ### Records -/

/-- The step table entry of a command is freed with its record when the command formed a step of its own, or was the
STEP_END that closed an explicit step (R95); the step's slots go with it (R142). -/
def State.freeStep (s : State) (x : Ctx) : State :=
  match s.step? x.sid with
  | some st =>
    if !st.explicit || (x.op = 2 && x.status ≠ stBadPacket) then
      { s with cp := { s.cp with steps := s.cp.steps.clear x.sid }, qn := { s.qn with slots := s.qn.slots.clear x.sid } }
    else s
  | none => s

/-- The epoch a record carries: that of the admission of the explicit step, or in force at fetch (R45). -/
def State.recEpoch (s : State) (x : Ctx) : W32 :=
  match s.step? x.sid with
  | some st => if st.explicit && st.admitted then st.epoch else x.epoch
  | none => x.epoch

/-- The status a record is written with: a STEP_END of a real-time step whose deadline has passed by then is late
(R47, item 6). -/
def State.recStatus (s : State) (x : Ctx) : Nat :=
  match s.step? x.sid with
  | some st => if x.op = 2 && x.status = stDone && st.rt && st.hasDl && s.passed st.key then stLate else x.status
  | none => x.status

/-- The queue moves past the record at Q_DONE: the context is freed, and a STOPPING queue with nothing in flight is
DISABLED (R41). -/
def State.passRecord (s : State) (x : Ctx) : State :=
  let s1 := (s.freeStep x).withCp fun c => { c with ctxs := c.ctxs.filter fun y => y.id ≠ x.id }
  let s2 := { s1 with qn := { s1.qn with caps := s1.qn.caps.clear x.id } }
  let s3 := s2.updQueue x.id.q fun Q => { Q with done := Q.done + 1 }
  let s4 := s3.freed x.id.q
  s4.updQueue x.id.q fun Q => if Q.mode = .stopping ∧ Q.inflight = 0 then { Q with mode := .disabled, holds := [] } else Q

/-- Slot of the record of count `c` (R25). -/
def Queue.recAddr (Q : Queue) (c : W32) : W64 := addrAdd Q.cplBase (16 * (c.toNat % Q.entries))

/-- Writes the record of the oldest context of a queue if the command has completed (R34); `none` if nothing is to be
written.  A failed write faults the queue, or on a STOPPING queue loses the record (R42); one whose line is held waits (R219). -/
def State.drainOne (s : State) (q : Nat) : Option State :=
  let Q := s.queue q
  if s.cp.halted then none else
  match s.cp.ctxs.find? (fun x => decide (x.id = ⟨q, Q.done⟩)) with
  | none => none
  | some x =>
    if x.phase ≠ .done then none
    else if x.dropped then some (s.passRecord x)
    else if Q.mode = .faulted ∧ Q.cause = 2 then none
    else
      let a := Q.recAddr x.id.c
      let st := s.recStatus x
      let bs := recordBytes st (phaseOf x.id.c Q.log2) (b01 x.evt) (fld (x.w 1) 16 16) x.id.c (s.recEpoch x) x.detail s.now
      match s.ringWrite x.fn a bs with
      | (_, some (.held _)) => none
      | (s1, none) =>
        let s2 := (if x.op = 2 ∧ x.status ≠ stBadPacket then s1.driftPush x.fn x.sid else s1).passRecord x
        some (if bit (x.w 0) 10 then s2.cause x.fn Q.vector else s2)
      | (_, some _) =>
        let t := s.logWrite a
        if Q.mode = .stopping then some ((t.passRecord x).queueFaultedEvent q 2 a)
        else some (t.faultQueue q 2 a)

/-- Writes every record of a queue that is due, in count order (R47, item 4); at most 64 are in flight (R26). -/
def State.drain : (fuel : Nat) → State → (q : Nat) → State
  | 0, s, _ => s
  | k + 1, s, q =>
    match s.drainOne q with
    | some s' => State.drain k s' q
    | none => s

/-- The earlier of the count from which STEP_ABORT refuses and the count of a command that now failed, in modular order (R24, R47, item 7). -/
def earlierCount (a : Option W32) (c : W32) : Option W32 :=
  match a with
  | some b => if (b - c).toNat < 2 ^ 31 then some c else some b
  | none => some c

/-- The step's counts of failures after one of its commands completes (R35), and STEP_ABORT (R47, item 7). -/
def Step.count (st : Step) (stepAbort : Bool) (op status : Nat) (c : W32) : Step :=
  if op = 2 ∧ status ≠ stBadPacket then st
  else
    { st with failHi := st.failHi + (if 0x10 ≤ status then 1 else 0)
              failLo := st.failLo + (if 1 ≤ status ∧ status ≤ 4 then 1 else 0)
              abortFrom := if 0x10 ≤ status ∧ stepAbort ∧ st.explicit then earlierCount st.abortFrom c else st.abortFrom }

/-- Statistics of a matrix command at its completion, whatever its status (R143): AMAX and SAT of its committed tiles go to its layer
record, and the counters of its tenant advance. -/
def State.endConv (s : State) (x : Ctx) : State :=
  match s.qn.caps.get x.id, decide (x.phase = .running) with
  | none, _ => s
  | some _, false => s
  | some c, true =>
    match c.layer with
    | none => s
    | some l =>
      ((s.updLayer x.ten l fun r => { r with lastAmax := c.amax, satTotal := r.satTotal + w32 (c.sat + c.sat2) }).radd32
        .quantSat x.ten 0 (c.sat + c.sat2)).radd32 .quantNan x.ten 0 c.nans

/-- Marks a command completed with a status and DETAIL, without writing records yet; a completed command stays so.  Claims of a
SEQ_CHUNK still open resolve unapplied. -/
def State.mark (s : State) (id : CtxId) (status : Nat) (detail : W32) : State :=
  match s.ctx? id with
  | none => s
  | some x =>
    if x.phase = .done then s
    else
      (((s.endConv x).seqEnd id).updCtx id fun y => { y with phase := .done, status := status, detail := detail, work := .none }).updStep x.sid
        fun st => st.count (s.queue id.q).stepAbort x.op status id.c

/-- Completes a command: marks it, and writes the records now due on its queue. -/
def State.finish (s : State) (id : CtxId) (status : Nat) (detail : W32) : State :=
  State.drain 65 (s.mark id status detail) id.q

/-- An event record about a command: EVT of its completion record is set where the record was written (Table 02.7). -/
def State.eventOf (s : State) (id : CtxId) (fn : Nat) (e : EvRec) : State :=
  let t := s.event fn e
  if t.rnat .evqTail fn = s.rnat .evqTail fn then t else t.updCtx id fun x => { x with evt := true }

/-- DETAIL of STEP_END (R35). -/
def Step.endDetail (st : Step) : W32 := w32 (st.failHi % 65536 + st.failLo % 65536 * 65536)

end Sys2Proof.Machine
end

