-- ==== Sys2Proof/Machine/Operands.lean ====
section
/-! DEFINITION. The operand forms of the opcodes and the checks of R44: Table 18.2's permissions and flags, reserved
fields, operand ranges (check 7) and address extents (checks 8 and 9). -/

namespace Sys2Proof.Machine

/-- Who may issue an opcode (Table 18.1, R374). -/
inductive FnClass where
  | any | vf | pf
deriving DecidableEq, Repr

/-- A row of Table 18.2: function class, permitted flags as bits of w0[11:8] (P 1, A 2, N 4, D 8), number of SUBOP values
(0: reserved), and whether the opcode behaves as WAIT_ALL (+A). -/
structure OpRow where
  fn : FnClass
  flags : Nat
  subs : Nat
  waitAll : Bool
deriving DecidableEq, Repr

/-- Table 18.2 (R373): the opcodes the device defines.  MATMUL's STAT takes SUBOP values 0 to 2 (Table 06.2). -/
def opRow (op : Nat) : Option OpRow :=
  match op with
  | 0x00 => some ⟨.any, 7, 0, false⟩
  | 0x01 => some ⟨.any, 4, 0, true⟩
  | 0x02 => some ⟨.any, 4, 0, false⟩
  | 0x03 => some ⟨.any, 4, 0, true⟩
  | 0x04 => some ⟨.any, 7, 0, false⟩
  | 0x10 => some ⟨.vf, 7, 0, false⟩
  | 0x11 => some ⟨.vf, 7, 2, false⟩
  | 0x12 => some ⟨.vf, 7, 0, false⟩
  | 0x20 => some ⟨.vf, 15, 3, false⟩
  | 0x21 => some ⟨.vf, 15, 0, false⟩
  | 0x22 => some ⟨.vf, 7, 0, false⟩
  | 0x23 => some ⟨.vf, 7, 2, false⟩
  | 0x30 => some ⟨.vf, 7, 0, false⟩
  | 0x31 => some ⟨.vf, 7, 2, false⟩
  | 0x32 => some ⟨.vf, 15, 0, false⟩
  | 0x33 => some ⟨.vf, 7, 0, false⟩
  | 0x34 => some ⟨.vf, 7, 0, false⟩
  | 0x35 => some ⟨.vf, 7, 0, false⟩
  | 0x36 => some ⟨.vf, 7, 2, false⟩
  | 0x40 => some ⟨.vf, 7, 0, false⟩
  | 0x41 => some ⟨.vf, 15, 0, false⟩
  | 0x42 => some ⟨.vf, 7, 0, false⟩
  | 0x43 => some ⟨.vf, 7, 2, false⟩
  | 0x50 => some ⟨.vf, 7, 0, false⟩
  | 0x51 => some ⟨.vf, 7, 4, false⟩
  | 0x52 => some ⟨.vf, 7, 0, false⟩
  | 0x53 => some ⟨.vf, 7, 0, false⟩
  | 0x54 => some ⟨.vf, 7, 0, false⟩
  | 0x55 => some ⟨.vf, 7, 2, false⟩
  | 0x60 => some ⟨.vf, 12, 0, true⟩
  | 0x70 => some ⟨.vf, 7, 0, false⟩
  | 0x71 => some ⟨.vf, 4, 0, true⟩
  | 0x72 => some ⟨.vf, 7, 0, false⟩
  | 0x73 => some ⟨.vf, 7, 0, false⟩
  | 0x74 => some ⟨.vf, 7, 0, false⟩
  | 0x75 => some ⟨.vf, 7, 6, false⟩
  | 0x76 => some ⟨.vf, 7, 0, false⟩
  | 0x77 => some ⟨.vf, 7, 4, false⟩
  | 0x78 => some ⟨.vf, 7, 2, false⟩
  | 0x79 => some ⟨.vf, 7, 2, false⟩
  | 0x7A => some ⟨.vf, 7, 0, false⟩
  | 0x7B => some ⟨.vf, 7, 2, false⟩
  | 0x7C => some ⟨.vf, 7, 0, false⟩
  | 0x7E => some ⟨.pf, 4, 0, true⟩
  | 0x80 => some ⟨.any, 7, 0, false⟩
  | 0x81 => some ⟨.any, 4, 0, true⟩
  | 0x82 => some ⟨.any, 7, 0, false⟩
  | 0x83 => some ⟨.any, 15, 0, false⟩
  | 0xF0 => some ⟨.pf, 4, 0, true⟩
  | _ => none

/-- A mask of `n` ones from bit 0. -/
def ones (n : Nat) : Nat := 2 ^ n - 1
/-- A whole word. -/
def full : Nat := ones 32

/-- The operand bits each opcode defines, words w2 to w15 in order; every other bit is reserved (R11, R375). -/
def usedBits (op : Nat) (w : List W32) : List Nat :=
  match op with
  | 0x01 => [full, 3, full, if bit (wordOf w 3) 1 then full else 0]
  | 0x02 => [full]
  | 0x03 => [ones 6, 0, full, full]
  | 0x04 => [ones 6 + ones 7 * 256, 0, full, full, full]
  | 0x10 => [ones 10, full, full, full]
  | 0x11 => [ones 10]
  | 0x12 => [ones 10]
  | 0x20 =>
    if bit (wordOf w 2) 10 then
      [0xFFF7FF, 0, full, full, full, full, full, full, ones 24, full, full, full, full, ones 10]
    else [0xFFF7FF, full, full, full, 0, 0, full, full, ones 24, full, full, full, full, ones 10]
  | 0x21 => [0xF0F000, 0, full, full, 0, 0, full, full, ones 24, 0xFFFF0000, full, full, full, ones 10]
  | 0x22 => [ones 10, 0, full, full]
  | 0x23 => [ones 10, 0, full, full]
  | 0x30 => [ones 10, 0, full, full]
  | 0x31 => [ones 10]
  | 0x32 => [0xF1FFF, ones 24, full, full, full, full, full, full, full, full, full, full, full, ones 10]
  | 0x33 => [ones 10, ones 17, full, full, full, full]
  | 0x34 => [ones 10, full, full, full, full, ones 8]
  | 0x35 => [ones 10]
  | 0x36 => [ones 10, 0, full, full]
  | 0x40 => [ones 8, 0, full, full]
  | 0x41 => [ones 16, full, full, full, full, full, full, full, ones 16]
  | 0x42 => [ones 8, ones 16, full, full, full, full]
  | 0x43 => [ones 8]
  | 0x50 => [ones 20, full, full, full, full, full]
  | 0x51 => [ones 4, full, full, full, ones 20, ones 16, full, full, full]
  | 0x52 => [0, 0, full, full, full, full, full, ones 4, full, full]
  | 0x53 => [ones 10, 0, full, full, full, full, full, full, full, full, full, ones 27]
  | 0x54 => [ones 5, 0, full, full, full, full]
  | 0x55 => [ones 4, full, full, full, full, full, full, full, ones 16]
  | 0x70 => [0x1FFFFF, ones 15, full, full, full, full]
  | 0x71 => [ones 16, ones 15]
  | 0x72 => [0x703, 0, full, full]
  | 0x73 => [0x703, ones 9, full, full, full, full, full, full, full, full, full, full, ones 24]
  | 0x74 => [0x7703, ones 16, full, full, full, full]
  | 0x75 => [0x303, ones 24, full, full, full, full, full, full, full, full, full]
  | 0x76 => [0x103, ones 24, full, full, full, full, full, full]
  | 0x77 => [0x703, ones 17, full, full, full, full, full, full, full, full]
  | 0x78 => [0x7FF0103, ones 17, full, full, full, full, full, full, full, full, full, full]
  | 0x79 => [0x103, ones 24, full, full]
  | 0x7A => [0x303, 0, full, full, full, full, full, full]
  | 0x7B => [3, 0, full, full, full, full, full, full, full, full, full]
  | 0x7C => [0x103, ones 24, full, full, full, full, full, full, full, full]
  | 0x80 => [0x1FFFFF, ones 15, full, full, full, full]
  | 0x81 => [ones 16, ones 15]
  | 0x82 => [0, 0, full, full, ones 25]
  | 0x83 => [0, 0, full, full, full, full, full]
  | 0xF0 => [full]
  | _ => []

/-- First reserved bit set in w2 to w15: word and bit (Table 02.8). -/
def reservedIn (used : List Nat) (w : List W32) : (n i : Nat) → Option (Nat × Nat)
  | 0, _ => none
  | n + 1, i =>
    let v := wordOf w i
    let ok := used.getD (i - 2) 0
    let bad := v - (v &&& ok)
    if bad ≠ 0 then some (i, lowBit 32 bad) else reservedIn used w n (i + 1)

/-- Check 4 (R44): reserved fields of w0, then of the operand words. -/
def check4 (r : OpRow) (w : List W32) : Option (Nat × Nat) :=
  let v0 := wordOf w 0 &&& (0xFF00F000 + (if r.subs = 0 then 0xFF0000 else 0))
  let v0' := if opcodeOf w = 0x20 then wordOf w 0 &&& 0xFFFCF000 else v0
  if v0' ≠ 0 then some (0, lowBit 32 v0') else reservedIn (usedBits (opcodeOf w) w) w 14 2

/-- Check 5 (R32): a flag outside the permitted set. -/
def check5 (r : OpRow) (w : List W32) : Option (Nat × Nat) :=
  let f := fld (wordOf w 0) 8 4
  let bad := f - (f &&& r.flags)
  if bad ≠ 0 then some (0, 8 + lowBit 4 bad) else none

/-- SUBOP within the values the row names (R375). -/
def subopOk (r : OpRow) (w : List W32) : Bool := r.subs == 0 || decide (fld (wordOf w 0) 16 8 < r.subs)

/-- Check 3 (R374): the issuing function's class; a VF must be bound. -/
def State.check3 (s : State) (fn : Nat) (r : OpRow) : Bool :=
  match r.fn, tenantOf fn with
  | .any, _ => true
  | .pf, none => true
  | .pf, some _ => false
  | .vf, none => false
  | .vf, some t => (s.tenPart t).isSome

/-- An address extent of a packet: the word that names it, the address, its length. -/
structure Ext where
  word : Nat
  addr : W64
  len : Nat
deriving DecidableEq, Repr

/-- Check 8 of an extent (R31, R210). -/
def State.extBad (s : State) (fn : Nat) (e : Ext) : Bool :=
  if isDev e.addr then !s.extOk fn (offOf e.addr) e.len else decide (2 ^ 63 < offOf e.addr + e.len)

/-- Check 9 of an extent. -/
def State.extSeal (s : State) (fn : Nat) (e : Ext) : Bool := isDev e.addr && s.extSealed fn (offOf e.addr) e.len

/-- Checks 8 and 9 over the extents of a packet outside family 0x7, in order. -/
def State.check89 (s : State) (fn : Nat) (es : List Ext) : Option (Nat × W32) :=
  match es.find? (s.extBad fn) with
  | some e => some (stRange, w32 e.word)
  | none =>
    match es.find? (s.extSeal fn) with
    | some e => some (stSealedDenied, w32 e.word)
    | none => none

/-- An alignment rule of an address operand. -/
def aligned (a : W64) (n : Nat) : Bool := a.toNat % n == 0

/-- The first of a list of conditions that fails, as word and bit. -/
def firstBad : List (Bool × Nat × Nat) → Option (Nat × Nat)
  | [] => none
  | (ok, w, b) :: l => if ok then firstBad l else some (w, b)

/-- The condition that an address at word `w` is a multiple of `n`: else its lowest offending bit is the lowest set bit below `n`. -/
def alignC (a : W64) (w n : Nat) : Bool × Nat × Nat := (aligned a n, w, lowBit 12 (a.toNat % n))

/-- The condition that an address has SPACE = 1 (R31), which is bit 31 of its second word. -/
def devC (a : W64) (w : Nat) : Bool × Nat × Nat := (isDev a, w + 1, 31)

/-- The condition that two words are zero: else their lowest set bit offends. -/
def zeroC (a : W64) (w : Nat) : Bool × Nat × Nat :=
  (a == 0, if a.toNat % 2 ^ 32 = 0 then w + 1 else w,
    if a.toNat % 2 ^ 32 = 0 then lowBit 32 (a.toNat / 2 ^ 32) else lowBit 32 (a.toNat % 2 ^ 32))

/-- ST_BAD_PACKET, reason 7, for the first condition of a list that fails (check 7). -/
def rangeBad (l : List (Bool × Nat × Nat)) : Option (Nat × W32) :=
  (firstBad l).map fun e => (stBadPacket, badDetail e.1 e.2 7)

/-- Two extents overlap. -/
def overlap (a m b n : Nat) : Bool := decide (a < b + n) && decide (b < a + m)

end Sys2Proof.Machine
end

