-- ==== Sys2Proof/Machine/Budget.lean ====
section
/-! DEFINITION. Budget accounts: balances, checks, charges, waits and overruns (R73 to R84). -/

namespace Sys2Proof.Machine

/-- An account of Table 04.1: a tenant's or a partition's in one unit (0 array, 1 stack, 2 link, 3 Quisto), or a
background account (0 self-test array, 1 migration stack, 2 migration link, 3 zeroing stack). -/
inductive Acct where
  | ten (t u : Nat)
  | part (p u : Nat)
  | bg (a : Nat)
deriving DecidableEq, Repr

/-- The balance register of an account (Table 04.5). -/
def Acct.bal : Acct → Reg
  | .ten t u => ⟨.tenBal, t, u⟩
  | .part p u => ⟨.pBal, p, u⟩
  | .bg a => ⟨.bgBal, a, 0⟩

/-- The cumulative-charge register of an account. -/
def Acct.used : Acct → Reg
  | .ten t u => ⟨.tenUsed, t, u⟩
  | .part p u => ⟨.pUsed, p, u⟩
  | .bg a => ⟨.bgUsed, a, 0⟩

/-- The EXH counter of an account. -/
def Acct.exh : Acct → Reg
  | .ten t u => ⟨.tenExh, t, u⟩
  | .part p u => ⟨.pExh, p, u⟩
  | .bg a => ⟨.bgExh, a, 0⟩

/-- The balance of an account. -/
def State.balance (s : State) (a : Acct) : Int := s.rint a.bal

/-- Charges an account (R79). -/
def State.charge (s : State) (a : Acct) (n : Nat) : State :=
  (s.rset a.bal (BitVec.ofInt 64 (s.balance a - n))).rset a.used (s.rget a.used + w64 n)

/-- Charges several accounts. -/
def State.charges (s : State) (as : List Acct) (n : Nat) : State := as.foldl (fun t a => t.charge a n) s

/-- Every account of a list has at least `n` (R79). -/
def State.pass (s : State) (as : List Acct) (n : Nat) : Bool := as.all fun a => decide ((n : Int) ≤ s.balance a)

/-- The accounts work of a function in a partition draws on, in the order tenant, partition (R74, R75). -/
def workAccts (fn : Nat) (part : Option Nat) (u : Nat) : List Acct :=
  (match tenantOf fn with
    | some t => [.ten t u]
    | none => []) ++
  (if u = 3 then [] else match part with
    | some p => [.part p u]
    | none => [])

/-- The budget B of an account in balance units (R78, Tables 04.2 to 04.4). -/
def State.budget (s : State) (a : Acct) : Nat :=
  match a with
  | .ten t u =>
    if u = 0 then sat 6400 (s.rfld .tenBudArray 0 13 t) * 1000
    else if u = 1 then s.rfld .tenBudStack 0 32 t * 4096
    else if u = 2 then s.rfld .tenBudLink 0 16 t * 4096
    else sat 200 (s.rfld .tenBudQuisto 0 8 t) * 1000
  | .part p u =>
    if u = 0 then sat 6400 (s.rfld .budArray 0 13 p) * 1000
    else if u = 1 then s.rfld .budStack 0 32 p * 4096
    else s.rfld .budLink 0 16 p * 4096
  | .bg a =>
    if a = 0 then sat 32 (s.rfld .bgSelftest 0 6) * 1000
    else if a = 1 then s.rfld .bgMigStack 0 32 * 4096
    else if a = 2 then s.rfld .bgMigLink 0 16 * 4096
    else s.rfld .bgZeroStack 0 32 * 4096

/-- The refill of one account at a period boundary: b_new = B + min(max(b_old, 0), B); self-test carries nothing (R78). -/
def State.refill (s : State) (a : Acct) : State :=
  let B : Int := s.budget a
  let carry : Int := if a = .bg 0 then 0 else min (max (s.balance a) 0) B
  s.rset a.bal (BitVec.ofInt 64 (B + carry))

/-- Every account of the device. -/
def allAccts : List Acct :=
  ((List.range 64).map fun t => (List.range 4).map fun u => Acct.ten t u).flatten ++
  ((List.range 16).map fun p => (List.range 3).map fun u => Acct.part p u).flatten ++
  (List.range 4).map fun a => .bg a

/-- The first wait of a period on an account: EXH advances, and BUDGET_EXHAUSTED is raised where enabled (R82).
`who` is the tenant whose work waits, 0x40 for a PF queue. -/
def State.exhaust (s : State) (a : Acct) (who : Nat) (part : Option Nat) : State :=
  if s.cp.exhSeen.contains a.exh then s
  else
    let s1 := (s.withCp fun c => { c with exhSeen := a.exh :: c.exhSeen }).radd32 a.exh.n a.exh.i a.exh.j 1
    let t := ticks s.cp.periodStart s.now % 2 ^ 32
    match a with
    | .ten k u =>
      match part with
      | some p =>
        if s.rbit .budCtrl 1 p then
          s1.event (vf k) { code := 0x0401, island := 29, d0 := u, d1 := p * 256 + who * 65536, d2 := t }
        else s1
      | none => s1
    | .part p u =>
      if s.rbit .budCtrl 2 p then
        s1.event 0 { code := 0x0401, island := 29, d0 := u, d1 := 1 + p * 256 + who * 65536, d2 := t }
      else s1
    | .bg k =>
      if s.rbit .bgCtrl 0 then
        s1.event 0 { code := 0x0401, island := 29, d0 := k, d1 := 2 + 0xFF00 + 0xFF0000, d2 := t }
      else s1

/-- Work waits on the accounts of a list that fail for `n` (R81, R82). -/
def State.waitOn (s : State) (as : List Acct) (n who : Nat) (part : Option Nat) : State :=
  (as.filter fun a => decide (s.balance a < (n : Int))).foldl (fun t a => t.exhaust a who part) s

/-- Number that names the issuer of work in BUDGET_EXHAUSTED: the tenant, or 0x40 for a PF queue (Table 04.7). -/
def whoOf (fn : Nat) : Nat := match tenantOf fn with
  | some t => t
  | none => 0x40

/-- Stack bytes of an extent of device memory: its whole 64-byte lines (Table 04.6); host bytes are not charged (R76). -/
def stackBytes (a : W64) (n : Nat) : Nat :=
  if isDev a ∧ n ≠ 0 then ((offOf a + n - 1) / 64 - offOf a / 64 + 1) * 64 else 0

/-- Charges the stack accounts of a command for an access. -/
def State.chargeStack (s : State) (x : Ctx) (n : Nat) : State := s.charges (workAccts x.fn x.part 1) n

/-- Bytes of `n` that every account of a list still admits, in whole requests of `unit` bytes (R79). -/
def State.affordable (s : State) (as : List Acct) (unit n : Nat) : Nat :=
  as.foldl (fun m a => min m ((s.balance a).toNat / unit * unit)) n

/-- Requests of at most `unit` bytes for what is left of an access, each checked at its issue (R79): those that pass are charged, and the rest
waits on the accounts that fail (R81, R82).  Answers the bytes charged. -/
def State.payPart (s : State) (as : List Acct) (unit left who : Nat) (part : Option Nat) : State × Nat :=
  if left = 0 then (s, 0)
  else if s.pass as left then (s.charges as left, left)
  else
    let m := s.affordable as unit left
    ((if m = 0 then s else s.charges as m).waitOn as (min unit (left - m)) who part, m)

/-- Stack bytes a command has paid of the access it waits with; above 2^64 `paid` carries the cause of an access that is held. -/
def State.paidOf (s : State) (x : Ctx) : Nat :=
  match s.ctx? x.id with
  | some y => y.paid % 2 ^ 64
  | none => 0

/-- An access of a command is held under a cause before it has been paid for. -/
def State.heldUp (s : State) (x : Ctx) (cause : Nat) : State := s.updCtx x.id fun y => { y with paid := cause * 2 ^ 64 + y.paid % 2 ^ 64 }

/-- No access of a command is held any more. -/
def State.unheldUp (s : State) (x : Ctx) : State :=
  match s.ctx? x.id with
  | some y => if 2 ^ 64 ≤ y.paid then s.updCtx x.id fun z => { z with paid := z.paid % 2 ^ 64 } else s
  | none => s

/-- An access of `n` stack bytes for a command, made of requests of at most 4 KiB (R79): when every account admits what is left
of it, it is charged and carried on; otherwise the requests that pass are charged, and the rest waits in its place (R81). -/
def State.pay (s : State) (x : Ctx) (n : Nat) : State × Bool :=
  let p := s.paidOf x
  let (t, m) := (s.unheldUp x).payPart (workAccts x.fn x.part 1) 4096 (n - p) (whoOf x.fn) x.part
  if n ≤ p + m then ((if p = 0 then t else t.updCtx x.id fun y => { y with paid := 0 }), true)
  else ((if m = 0 then t else t.updCtx x.id fun y => { y with paid := p + m }), false)

/-- An access that has been paid for goes on; otherwise the command waits. -/
def State.gate (s : State) (x : Ctx) (n : Nat) (k : State → State) : State :=
  match s.pay x n with
  | (t, true) => k t
  | (t, false) => t

/-- The clock of island `k` in MHz: ISL_STATUS.FREQ_MHZ, or the requested frequency while it is stopped. -/
def State.mhz (s : State) (k : Nat) : Nat :=
  let f := s.rfld .islStatus 0 12 k
  if f ≠ 0 then f else
    let t := s.rfld .islCtrl 0 12 k
    if t ≠ 0 then t else nominalMHz k

/-- The reservation r of a tile on a cell: 3,000 cell cycles at the clock at dispatch, in ns (Table 04.6).  DESIGN CHOICE (log 62): where the
clock does not divide, r is rounded up to whole ns. -/
def State.reserveNs (s : State) (cell : Nat) : Nat := cdiv 3000000 (s.mhz cell)

/-- BUDGET_OVERRUN (R83): a tile ran `excess` ns longer than r and left an array account below zero. -/
def State.overrun (s : State) (t p cell arr excess : Nat) : State :=
  ((s.radd32 .tenOverrun t 0 1).radd32 .pOverrun p 0 1).event 0
    { code := 0x0402, island := 29, d0 := t + p * 256, d1 := excess, d2 := cell + arr * 16 }

/-- The accounts an array charge was made against (R74, R81, R84). -/
def Charge.accts (c : Charge) : List Acct :=
  match c.tenant, c.part with
  | some t, some p => if c.spill then [.part p 0] else [.ten t 0, .part p 0]
  | none, some p => [.part p 0]
  | some t, none => [.ten t 0]
  | none, none => [.bg 0]

/-- An array account as it stood at the end of a period: in force while the period lasts, its final balance from the boundary on (R79). -/
def State.balanceIn (s : State) (period : W64) (a : Acct) : Int :=
  if period = s.cp.periodStart then s.balance a
  else match s.cp.finals.find? fun f => f.reg = a.bal ∧ f.period = period with
    | some f => f.bal.toInt
    | none => 0

/-- The balance of an array account in a period is amended by `d` ns; the period's end does not change the balance in force (R79). -/
def State.amend (s : State) (period : W64) (a : Acct) (d : Int) : State :=
  if period = s.cp.periodStart then s.rset a.bal (BitVec.ofInt 64 (s.balance a + d))
  else s.withCp fun c => { c with finals := c.finals.map fun f =>
    if f.reg = a.bal ∧ f.period = period then { f with bal := f.bal + BitVec.ofInt 64 d } else f }

/-- Settles an array charge with the actual time (R79, R83): the reservation is replaced, in the balance of the period the tile was
dispatched in, and that balance decides an overrun. -/
def State.settle (s : State) (cell arr : Nat) (c : Charge) (ran : Nat) : State :=
  let fix (t : State) (a : Acct) : State :=
    (t.amend c.period a ((c.r : Int) - ran)).rset a.used (t.rget a.used + w64 ran - w64 c.r)
  let s1 := c.accts.foldl fix s
  let s2 := match c.tenant with
    | some t => if c.spill then s1.radd64 .tenSpilled t 0 ran else s1
    | none => s1
  match c.tenant, c.part with
  | some t, some p =>
    if c.r < ran ∧ c.accts.any (fun a => decide (s2.balanceIn c.period a < 0)) then s2.overrun t p cell arr (ran - c.r) else s2
  | _, _ => s2

/-- Balances at the end of a period, kept while a tile dispatched in it is in flight (R79, R83). -/
def State.noteFinals (s : State) : State :=
  let cs := s.en.arrs.ents.filterMap fun e => e.2.fly.map (·.charge)
  let old := s.cp.finals.filter fun f => cs.any fun c => decide (c.period = f.period)
  let new := (((cs.filter fun c => c.period = s.cp.periodStart).map Charge.accts).flatten.dedup).map fun a =>
    Final.mk a.bal s.cp.periodStart (s.rget a.bal)
  s.withCp fun c => { c with finals := old ++ new }

end Sys2Proof.Machine
end

