-- ==== Sys2Proof/Machine/Ecc.lean ====
section
/-! DEFINITION. The symbol code of stacked memory: poison, and what a read that meets a stored error does (R222 to R224, R227, R228). -/

namespace Sys2Proof.Machine

/-- LOCATION of a memory line: [5:0] channel, [21:6] physical page (Table 14.3). -/
def memLoc (line : Nat) : Nat := chanOf (line * 64) + line / 32768 * 64

/-! ### Poison (R224, Table 10.6) -/

/-- Holder of a line's page: its function, if any, and the map index or the device-managed mark of MEM_POISON. -/
def State.lineHolder (s : State) (line : Nat) : Option (Nat × Nat) :=
  let g := s.mem.pages.get (line / 32768)
  if g.st ≠ .held then none
  else match g.map, g.dev with
    | some (fn, idx), _ => some (fn, idx)
    | none, some t => some (vf t, 2 ^ 15)
    | none, none => some (0, 0)

/-- Number of a holder in MEM_ERROR: the tenant, 0xFF the PF, 0xFE none. -/
def holderNum : Option (Nat × Nat) → Nat
  | none => 0xFE
  | some (0, _) => 0xFF
  | some (fn + 1, _) => fn

/-- MEM_ERROR about a line (Table 10.6). -/
def State.memError (s : State) (line cls : Nat) : State :=
  let c := chanOf (line * 64)
  s.event 0 { code := 0x1001, island := 16 + c / 8, d0 := c + cls * 256 + line / 32768 * 65536, d1 := line % 32768 * 64
              d2 := holderNum (s.lineHolder line) + (s.mem.pages.get (line / 32768)).part % 16 * 256 }

/-- MEM_ERROR about a channel as a whole: page, offset and holder have no meaning and are free (assumption log 3). -/
def State.chanError (s : State) (c cls : Nat) : State :=
  let (v0, s1) := s.free
  let (v1, s2) := s1.free
  let (v2, s3) := s2.free
  s3.event 0 { code := 0x1001, island := 16 + c / 8, d0 := c + cls * 256 + v0.toNat % 65536 * 65536
               d1 := v1.toNat % 2 ^ 32, d2 := v2.toNat % 2 ^ 32 }

/-- The fault-log entry of a memory detection that concerns no command (R228, R310). -/
def State.logMem (s : State) (line cls action : Nat) : State :=
  s.logFault { cls := cls, island := 16 + chanOf (line * 64) / 8, action := action, loc := memLoc line, detail := line % 32768 * 64 }

/-- MEM_POISON to the holder of a line that becomes poisoned (R224). -/
def State.poisonEvent (s : State) (line cause : Nat) : State :=
  match s.lineHolder line with
  | none => s
  | some (fn, idx) =>
    s.event fn { code := 0x1002, island := 16 + chanOf (line * 64) / 8, d0 := idx % 65536 + cause % 256 * 65536
                 d1 := line % 32768 * 64, d2 := line / 32768 }

/-- A line becomes poisoned; a line already poisoned reports nothing again. -/
def State.poisonLine (s : State) (line cause : Nat) : State :=
  if s.linePoison line then s
  else (s.withMem fun m => { m with poison := line :: m.poison, errs := m.errs.filter fun e => e.line ≠ line }).poisonEvent line cause

/-- The sub-page of a line is marked for retirement (R227). -/
def State.markSub (s : State) (line : Nat) : State :=
  if s.mem.marked.contains (line / 64) then s else s.withMem fun m => { m with marked := line / 64 :: m.marked }

/-! ### Stored errors (R222, R223) -/

/-- A line of the device takes on a stored error, or a page a parity failure of its owner tag or map entry. -/
def State.hit (s : State) : Hit → State
  | .line e =>
    if e.line < 64 * 768 * 32768 ∧ !s.mem.errs.contains ⟨e.line, true⟩ then
      s.withMem fun m => { m with errs := e :: m.errs.filter fun o => o.line ≠ e.line }
    else s
  | .tag p => if p < 64 * 768 ∧ !s.mem.tagErrs.contains p then s.withMem fun m => { m with tagErrs := p :: m.tagErrs } else s

/-- Stacked memory takes on errors. -/
def State.strike (s : State) (es : List Hit) : State := es.foldl State.hit s

/-- A read of a line meets what is stored there (R222, R223, R227): an error of one symbol is delivered corrected, counted, and written back
where CE_WRITEBACK is armed (in one operation with the read, so no write can have come between); any other is uncorrectable, and the line is
poisoned. -/
def State.meetLine (s : State) (line : Nat) : State :=
  let c := chanOf (line * 64)
  let m := c / 8
  match s.mem.errs.find? fun e => e.line = line with
  | none => s
  | some e =>
    if s.linePoison line then s
    else if e.fatal then
      ((((s.radd32 .ue c 0 1).poisonLine line 1).markSub line).memError line 3).logMem line 4 0
    else
      let s1 := (s.radd32 .ce c 0 1).withMem fun x =>
        { x with
          subCe := x.subCe.upd (line / 64) (· + 1)
          errs := if s.rbit .ifPolicy 4 m then x.errs.filter fun o => o.line ≠ line else x.errs }
      let s2 := if max 1 (s.rfld .ifPolicy 16 8 m) ≤ s1.mem.subCe.get (line / 64) then s1.markSub line else s1
      if s.rbit .ifPolicy 6 m then (s2.memError line 4).logMem line 6 0 else s2.radd32 .classCount 6 0 1

/-- Lines are read. -/
def State.meetLines (s : State) (ls : List Nat) : State := if s.mem.errs = [] then s else ls.foldl State.meetLine s

/-- An extent of a function is read: where the read is performed, its lines are met. -/
def State.meetExt (s : State) (fn a n : Nat) : State :=
  if s.mem.errs = [] ∨ !s.extOk fn a n ∨ (s.extHeld fn a n).isSome then s else s.meetLines (s.linesOf fn a n)

/-- An extent named by an address operand is read. -/
def State.meetOp (s : State) (fn : Nat) (a : W64) (n : Nat) : State := if isDev a then s.meetExt fn (offOf a) n else s

/-- Physical bytes are read. -/
def State.meetPhys (s : State) (pa n : Nat) : State :=
  if s.mem.errs = [] ∨ n = 0 then s
  else s.meetLines ((List.range ((pa + n - 1) / 64 - pa / 64 + 1)).map (pa / 64 + ·))

end Sys2Proof.Machine
end

