-- ==== Sys2Proof/Machine/Recovery.lean ====
section
/-! DEFINITION. Recovery: releasing what a command holds, the fault policy, context teardown, partition reset, and the
refusal of an epoch (R54, R68, R313 to R318, R325). -/

namespace Sys2Proof.Machine

/-- The state with the array and engine state changed. -/
def State.withEn (s : State) (f : Engines → Engines) : State := { s with en := f s.en }

/-- One array changed. -/
def State.updArr (s : State) (k : Nat) (f : Arr → Arr) : State := s.withEn fun e => { e with arrs := e.arrs.upd k f }

/-- One array. -/
def State.arr (s : State) (k : Nat) : Arr := s.en.arrs.get k

/-- The command a flight belongs to. -/
def Flight.cmd (f : Flight) : Option CtxId :=
  match f.job with
  | .tile id _ _ => some id
  | .selftest => none

/-- Abandons the tile or slice in flight on an array (R102): staged outputs are discarded, the time so far is charged and
the rest of the reservation returned (R89). -/
def State.abandon (s : State) (k : Nat) : State :=
  match (s.arr k).fly with
  | none => s
  | some f => (s.settle (k / 4) (k % 4) f.charge f.ran).updArr k fun a => { a with fly := none }

/-- Abandons every flight that a test of array and flight picks. -/
def State.abandonIf (s : State) (p : Nat → Flight → Bool) : State :=
  (List.range 64).foldl (fun t k => match (t.arr k).fly with
    | some f => if p k f then t.abandon k else t
    | none => t) s

/-! ### Releasing pages (R64, R227) -/

/-- A page holds a sub-page marked for retirement (R227). -/
def State.pageMarked (s : State) (p : Nat) : Bool := s.mem.marked.any fun k => k / 512 = p

/-- The state with Quisto state changed. -/
def State.withQst (s : State) (f : Qst → Qst) : State := { s with qst := f s.qst }

/-- Sealed objects and line keys of a page go (R274, R276). -/
def State.dropSealed (s : State) (p : Nat) : State :=
  s.withQst fun q =>
    { q with
      hdrs := q.hdrs.filter fun e => e.1 / 32768 ≠ p
      lgen := q.lgen.filter fun e => e.1 / 32768 ≠ p
      pgen := q.pgen.clear p }

/-- A released page goes onto its island's dirty list, or to RETIRED when it holds a marked sub-page and RETIRE is armed. -/
def State.releasePage (s0 : State) (p : Nat) : State :=
  let s := s0.dropSealed p
  let m := pageIsland p
  if s.rbit .ifPolicy 5 m && s.pageMarked p then
    (s.withMem fun x =>
      { x with pages := x.pages.set p ⟨.retired, 0, none, none, none⟩, tagErrs := x.tagErrs.filter (· ≠ p) }).rput .retiredPages m 0
      (s.rnat .retiredPages m + 1)
  else
    (s.withMem fun x =>
      { x with
        pages := x.pages.set p ⟨.dirty, 0, none, none, none⟩
        tagErrs := x.tagErrs.filter (· ≠ p)
        dirty := x.dirty.upd m (· ++ [p]) }).rput .dirtyPages m 0 (s.rnat .dirtyPages m + 1)

/-- A HELD page leaves its partition's count and is released. -/
def State.unholdPage (s : State) (p : Nat) : State :=
  let q := (s.mem.pages.get p).part
  (s.releasePage p).rput .memHeld q 0 (s.rnat .memHeld q - 1)

/-! ### What a command or step holds in the tables and on the links -/

/-- The state with the embedding state changed. -/
def State.withEmb (s : State) (f : Emb → Emb) : State := { s with emb := f s.emb }

/-- The state with the link state changed. -/
def State.withLnk (s : State) (f : Lnk → Lnk) : State := { s with lnk := f s.lnk }

/-- Removes gathers that a test picks, with their row reads, their places in far fetches and their requests. -/
def Emb.dropGathers (e : Emb) (p : Gather → Bool) : Emb :=
  let gids := (e.gathers.filter p).map (·.gid)
  let gone (r : RowRead) : Bool := match r.for_ with
    | .gather g _ => gids.contains g
    | .serve .. => false
  let ks := (e.reads.filter gone).map (·.k)
  { e with
    gathers := e.gathers.filter fun g => !p g
    reads := e.reads.filter fun r => !gone r
    far := e.far.map fun o => { o with atts := o.atts.filter fun a => match a with
      | .row k => !ks.contains k
      | .upd .. => true }
    reqs := e.reqs.filter fun r => !gids.contains r.gid }

/-- Releases what a command holds in the tables (R315): its gather, its updates not yet in a write, its write-back job. -/
def Emb.dropCmd (e : Emb) (id : CtxId) : Emb :=
  let e1 := e.dropGathers fun g => g.x.id == id && !g.done
  { e1 with
    tabs := e1.tabs.mapV fun _ t => t.map fun sh => if (sh.retiring.map (·.1)) = some id then { sh with retiring := none } else sh
    upds := e1.upds.filter fun u => u.id ≠ id
    jobs := e1.jobs.filter fun j => j.id ≠ id
    far := e1.far.map fun o =>
      { o with
        atts := o.atts.take o.commits ++ (o.atts.drop o.commits).filter fun a => match a with
          | .upd i _ _ => i ≠ id
          | .row _ => true
        job := if o.job = some id then none else o.job } }

/-- A TABLE_DEFINE that ends before its table exists gives back every page it took. -/
def State.dropDefining (s : State) (id : CtxId) : State :=
  s.emb.tabs.ents.foldl (fun t e =>
    match e.2 with
    | some sh =>
      if sh.defining = some id then
        ((sh.home ++ sh.dirPages ++ sh.promo ++ sh.repl).foldl (fun u p =>
          if (u.mem.pages.get p).st = .held then u.unholdPage p else u) t).withEmb fun m => { m with tabs := m.tabs.clear e.1 }
      else t
    | none => t) s

/-- A SEQ_DEFINE that ends before its family exists gives back every page it took. -/
def State.dropDefFam (s : State) (id : CtxId) : State :=
  s.seq.fams.ents.foldl (fun t e =>
    match e.2 with
    | some m =>
      if m.defining = some id then
        ((m.pool ++ m.dirPages).foldl (fun u p => if (u.mem.pages.get p).st = .held then u.unholdPage p else u) t).withSeq fun q =>
          { q with fams := q.fams.clear e.1 }
      else if m.retiring = some id then t.updFam e.1.1 e.1.2 fun k => { k with retiring := none }
      else t
    | none => t) s

/-- The pages of a step's request lists are released (R196). -/
def State.dropReqPages (s : State) (sid : Nat) : State :=
  ((s.emb.reqPages.get sid).foldl (fun t p => if (t.mem.pages.get p).st = .held then t.unholdPage p else t) s).withEmb fun e => { e with reqPages := e.reqPages.clear sid }

/-- An ABORT or ABORT_ACK to send in a link's next control flit. -/
def State.sendAbort (s : State) (l : Nat) (m : AbortMsg) : State :=
  s.withLnk fun n => { n with links := n.links.upd l fun k => { k with aborts := k.aborts ++ [m] } }

/-- A step's Exchange is dropped by a recovery (R207): ABORT for each open transaction, which stays taken until acknowledged;
transfers that wait are forgotten. -/
def State.dropExchange (s : State) (sid : Nat) : State :=
  let open_ := s.lnk.xfers.filter fun x => x.sid = sid ∧ x.st = .live ∧ x.sent ≠ 0
  let s1 := open_.foldl (fun t x => match x.link with
    | some l => (t.sendAbort l ⟨s.rfld .lnkDevice 0 16, x.dev, x.txn, false⟩).withLnk fun n => { n with zombies := (l, x.txn, s.now) :: n.zombies }
    | none => t) s
  let s2 := s1.withLnk fun n =>
    { n with
      exch := n.exch.filter fun e => e.sid ≠ sid
      xfers := n.xfers.filter fun x => x.sid ≠ sid }
  let s3 := s2.withEmb fun e => { e.dropGathers (fun g => g.x.sid == sid) with reqs := e.reqs.filter fun r => r.sid ≠ sid }
  s3.dropReqPages sid

/-- A command's unfinished claims on DIRTY pages are released: the pages stay on the dirty list, MEM_HELD falls (R213). -/
def State.dropClaims (s : State) (id : CtxId) : State :=
  s.mem.pages.ents.foldl (fun t e =>
    if e.2.claim = some id then
      let t1 := t.withMem fun m =>
        { m with
          pages := m.pages.set e.1 { e.2 with claim := none, map := none, dev := none }
          maps := match e.2.map with
            | some k => m.maps.upd k fun x => { x with claimed := false }
            | none => m.maps }
      let t1 := t1.withEmb fun m => { m with reqPages := m.reqPages.mapV fun _ l => l.filter (· ≠ e.1) }
      t1.rput .memHeld e.2.part 0 (t.rnat .memHeld e.2.part - 1)
    else t) s

/-- Slots of a load that ends without completing go to ZEROING (Table 03.5). -/
def State.dropLoad (s : State) (id : CtxId) : State :=
  s.toy.models.ents.foldl (fun t e =>
    match e.2 with
    | some m =>
      if m.loader = some id ∧ !m.resident then
        { t with toy := { t.toy with
            models := t.toy.models.set e.1 none
            slots := m.slots.foldl (fun sl k => sl.upd k fun z => { z with st := .zeroing, owner := none }) t.toy.slots } }
      else t
    | none => t) s

/-- The actual time of a Quisto slice replaces its reservation of 20,000 ns; a slice of an earlier period amends only the cumulative
charge (R79). -/
def State.settleSlice (s : State) (c : Nat × W64 × W64) (ran : Nat) : State :=
  let a := Acct.ten c.1 3
  let s1 := if c.2.1 = s.cp.periodStart then s.rset a.bal (BitVec.ofInt 64 (s.balance a + 20000 - ran)) else s
  s1.rset a.used (s1.rget a.used + w64 ran - w64 20000)

/-- A Quisto slice of a command stops part-way (R281): its time so far is charged. -/
def State.stopSlices (s : State) (id : CtxId) : State :=
  s.en.eng.ents.foldl (fun t e =>
    match e.2.job, e.2.slice with
    | some i, some c =>
      if i = id then (t.settleSlice c (ticks c.2.2 t.now)).withEn fun n => { n with eng := n.eng.upd e.1 fun g => { g with slice := none } } else t
    | _, _ => t) s

/-- Entries a SEAL_ALLOC has claimed and not yet sealed, whose pages are HELD, are given back (R213, R276). -/
def State.dropSealing (s : State) (id : CtxId) : State :=
  match s.ctx? id with
  | some x =>
    if x.op = 0x70 ∧ x.phase = .running then
      (List.range (fld (x.w 2) 0 16)).foldl (fun t i =>
        let k := (x.fn, fld (x.w 3) 0 15 + i)
        let e := t.mem.maps.get k
        if e.claimed && e.sealed && (t.mem.pages.get e.page).st == .held then
          (t.withMem fun m => { m with maps := m.maps.clear k }).unholdPage e.page
        else t) s
    else s
  | none => s

/-- Releases what one command holds (R315), apart from its context, which its record frees. -/
def State.releaseCtx (s0 : State) (id : CtxId) : State :=
  let s := (s0.stopSlices id).dropSealing id
  let s1 := s.abandonIf fun _ f => f.cmd = some id
  let s2 := s1.withEn fun e =>
    { e with
      due := e.due.filter fun d => d.id ≠ id
      eng := e.eng.mapV fun _ g => if g.job = some id then { g with job := none } else g
      arrs := e.arrs.mapV fun _ a => match a.look with
        | some (i, _) => if i = id then { a with look := none, lookStreams := [] } else a
        | none => a }
  let s3 := ((((s2.dropClaims id).dropLoad id).dropDefining id).dropDefFam id).withEmb fun e => e.dropCmd id
  { s3 with
    qn := { s3.qn with pend := s3.qn.pend.filter fun p => p.id ≠ id }
    intake := { s3.intake with jobs := s3.intake.jobs.filter fun j => j.id ≠ id }
    qst := { s3.qst with jobs := s3.qst.jobs.filter fun j => j.id ≠ id } }

/-- Contexts of a step, in fetch order. -/
def State.stepCtxs (s : State) (sid : Nat) : List Ctx := s.cp.ctxs.filter fun x => x.sid = sid

/-- The status and DETAIL with which a recovery ends a command of the step: STEP_END reports the counts of R35. -/
def endMark (s : State) (status : Nat) (detail : W32) (x : Ctx) : State :=
  if x.op = 2 then
    match s.step? x.sid with
    | some st => s.mark x.id status st.endDetail
    | none => s.mark x.id status detail
  else s.mark x.id status detail

/-- Ends a step by a recovery (R314, items 2 to 5): completed commands keep their status, every other fetched command
stops and completes with the recovery's status, and packets fetched later do so after their checks. -/
def State.endStep (s : State) (sid : Nat) (status : Nat) (detail : W32) : State :=
  let live := (s.stepCtxs sid).filter fun x => x.phase ≠ .done
  let s1 := live.foldl (fun t x => t.releaseCtx x.id) s
  let s2 := live.foldl (fun t x => endMark t status detail x) s1
  (s2.dropExchange sid).updStep sid fun st => { st with ended := some (status, detail), yoyo := none }

/-- GLB.TEN_RECOVERY[t] records the latest recovery that ended commands of the tenant (Table 14.6). -/
def State.noteRecovery (s : State) (t status commands : Nat) : State :=
  s.rput .tenRecovery t 0 (status + sat 65535 commands * 256 + s.now.toNat % 2 ^ 32 * 2 ^ 32)

/-! ### Epoch refusal (R68) -/

/-- The queues that belong to a partition and have been used. -/
def State.partQueues (s : State) (p : Nat) : List Nat := (s.cp.queues.ents.map (·.1)).filter fun q => s.queuePart q = some p

/-- The drain of a partition is complete (R70); the EPOCH_COMMIT's own context does not count (R69). -/
def State.drained (s : State) (p : Nat) : Bool :=
  (s.partQueues p).all fun q =>
    (s.cp.ctxs.all fun x => x.id.q ≠ q || (match s.cp.commit with
      | some c => c.id = x.id
      | none => false)) && (s.queue q).openSid.isNone && (s.queue q).reads.isEmpty

/-- Microseconds since an instant, saturating at 0xFFFF. -/
def State.usSince (s : State) (t : W64) : Nat := sat 65535 (ticks t s.now / 1000)

/-- Closes the epoch: OPEN and PENDING clear, shadows discarded, GLB.EPOCH_RESULT written (R68). -/
def State.closeEpoch (s : State) (status reason : Nat) : State :=
  let s1 := { s with rf := { s.rf with shadow := [], staged := s.rf.staged.filter fun e => !e.1.shadow } }
  let s2 := (s1.rput .epochCtrl 0 0 0).rput .epochResult 0 0
    (status + reason * 256 + s.rnat .epoch % 65536 * 65536)
  s2.withCp fun c => { c with commit := none }

/-- Refuses the epoch in progress whole (R68): affected partitions return to their states, the command completes with
ST_REFUSED unless a recovery of its own queue ends it. -/
def State.epochRefuse (s : State) (reason : Nat) : State :=
  match s.cp.commit with
  | none => s
  | some c =>
    let low := match c.affected.find? (fun p => !s.drained p) with
      | some p => p
      | none => 0xFF
    let s1 := c.before.foldl (fun t e => if t.pstate e.1 = 4 then t else t.rput .pstate e.1 0 e.2) s
    let s2 := s1.closeEpoch stRefused reason
    s2.finish c.id stRefused (w32 (reason + low * 256 + s.usSince c.begun * 65536))

/-- STEP_ID of a step table entry, 0 if it is gone. -/
def State.stepIdOf (s : State) (sid : Nat) : W32 :=
  match s.step? sid with
  | some st => st.stepId
  | none => 0

/-! ### Context teardown (R313 to R316) -/

/-- A teardown of the step of the handed command `x`. -/
def State.teardown (s : State) (x : Ctx) (cls : Nat) (fd : W32) : State :=
  let others := (s.stepCtxs x.sid).filter fun y => y.phase ≠ .done ∧ y.id ≠ x.id
  let s1 := s.releaseCtx x.id
  let s2 := match tenantOf x.fn with
    | some _ =>
      let (v, u) := s1.free
      u.eventOf x.id x.fn
        { code := code14 1, island := v.toNat % 64, queue := x.id.q, stepId := s.stepIdOf x.sid
          d0 := x.id.c.toNat, d1 := cls, d2 := others.length }
    | none => s1
  let s3 := (s2.mark x.id stFault fd).endStep x.sid stTornDown x.id.c
  let s4 := match x.part with
    | some p => s3.radd32 .teardowns p 0 1
    | none => s3
  let s5 := match tenantOf x.fn with
    | some t => s4.noteRecovery t stTornDown (others.length + 1)
    | none => s4
  State.drain 65 s5 x.id.q

/-! ### Partition reset (R317, R318) -/

/-- Sends at once every pending message of a function's open vectors (R90). -/
def State.flushVecs (s : State) (fn : Nat) : State :=
  (List.range 32).foldl (fun t v => if t.vecOpen fn v && decide (1 ≤ (t.cp.vecs.get (fn, v)).pend) then t.msixNow fn v else t) s

/-- The interrupts and event records of a partition reset, in the order of R90. -/
def State.resetEvents (s : State) (p : Nat) : State :=
  let ts := s.boundTo p
  let s1 := ts.foldl (fun t k => t.flushVecs (vf k)) s
  let fns := ts.map vf ++ [0]
  let ev (t : State) (fn : Nat) : State :=
    let (v0, t1) := t.free
    let (v1, t2) := t1.free
    let (v2, t3) := t2.free
    t3.event fn { code := code14 2, island := v2.toNat / 2 ^ 32 % 64, d0 := v0.toNat % 2 ^ 32, d1 := v1.toNat % 2 ^ 32, d2 := v2.toNat % 2 ^ 32 }
  let s2 := fns.foldl ev s1
  fns.foldl (fun t fn =>
    let v := t.rfld .evqCtrl 16 5 fn
    if t.vecOpen fn v && decide (1 ≤ (t.cp.vecs.get (fn, v)).pend) then t.msixNow fn v else t) s2

/-- Resets the cells of a partition (R318, items 3 and 5): tiles and array slices abandoned, lookahead cancelled,
scratchpad regions back to no owner, row-cache lines
invalidated.  A background slice resumes later: its claim stands. -/
def State.resetCells (s : State) (p : Nat) : State :=
  let mine (k : Nat) : Bool := s.cellPart (k / 4) = some p
  let s1 := (List.range 64).foldl (fun t k =>
    if mine k then
      match (t.arr k).fly with
      | some f => (t.abandon k).updArr k fun a =>
        { a with again := a.again || f.job = .selftest, look := none, lookStreams := [], lastSid := none }
      | none => t.updArr k fun a => { a with look := none, lookStreams := [], lastSid := none }
    else t) s
  (s1.withEn fun e => { e with scratch := e.scratch.keep fun k _ => !(s.cellPart k.1 = some p) }).withEmb fun e =>
    { e with lines := e.lines.filter fun l => l.part ≠ p }

/-- A partition reset of `p` begins (R318): cause 1 fault policy, 2 host.  While `p` is RESETTING it merges into the
reset in progress, and a FREE partition is not reset (R317).  The commands that the fault policy handed count among those it ends. -/
def State.partReset (s : State) (p cause : Nat) (handed : List CtxId := []) : State :=
  if s.pstate p = 4 ∨ s.pstate p = 0 then s
  else
    let hit := match s.cp.commit with
      | some c => (c.drain && c.affected.contains p) || decide (s.queuePart c.id.q = some p)
      | none => false
    let own := match s.cp.commit with
      | some c => decide (s.queuePart c.id.q = some p)
      | none => false
    let d := w32 (p + cause * 16)
    let s1 := (s.rput .pstate p 0 4).rput .partReset 0 0 (setFld (s.rnat .partReset) p 1 1)
    let s2 := s1.radd32 .resets p 0 1
    let s3 := if hit && !own then s2.epochRefuse 7
      else if hit then
        match s2.cp.commit with
        | some c =>
          let t := c.before.foldl (fun t e => if t.pstate e.1 = 4 then t else t.rput .pstate e.1 0 e.2) s2
          (t.closeEpoch stRefused 7).mark c.id stPartReset d
        | none => s2
      else s2
    let s4 := (s3.partQueues p).foldl (fun t q => t.updQueue q fun Q => { Q with reads := [], grant := 0 }) s3
    let s5 := s4.resetEvents p
    let sids := ((s5.cp.steps.ents.filter fun e => match e.2 with
      | some st => st.part = some p
      | none => false).map (·.1))
    let ended (t : Nat) := (s5.cp.ctxs.filter fun x => x.part = some p ∧ x.fn = vf t ∧ (x.phase ≠ .done ∨ handed.contains x.id)).length
    let s6 := sids.foldl (fun t sid => t.endStep sid stPartReset d) s5
    let s7 := (s.boundTo p).foldl (fun t k => if ended k = 0 then t else t.noteRecovery k stPartReset (ended k)) s6
    let s8 := s7.resetCells p
    ((s8.partQueues p).foldl (fun t q => State.drain 65 t q) s8).release

/-! ### The fault policy (R54, R313) -/

/-- A command is handed to its partition's fault policy: it completes with ST_FAULT and the DETAIL of R313; an isolated
partition with FAULT_RESET = 1 is reset, otherwise the command's step is torn down.  A step that a recovery has already
ended is not torn down again (§14.11). -/
def State.toPolicy (s : State) (id : CtxId) (cls island arr ord : Nat) : State :=
  match s.ctx? id with
  | none => s
  | some x =>
    if x.phase = .done then s
    else
      let fd := faultDetail cls island arr ord
      let gone := match s.step? x.sid with
        | some st => st.ended.isSome
        | none => false
      let reset := match x.part with
        | some p => s.isolated p && s.rbit .mode 1 p
        | none => false
      if gone then (s.releaseCtx id).finish id stFault fd
      else if reset then
        match x.part with
        | some p => State.drain 65 (((s.releaseCtx id).mark id stFault fd).partReset p 1 [id]) id.q
        | none => s
      else s.teardown x cls fd

/-- The log's ACTION for a command handed now (Table 14.3): 4 partition reset, 3 teardown, or 2 where a recovery has ended its step
already, so that the command only fails (§14.11). -/
def State.policyAction (s : State) (x : Ctx) : Nat :=
  let gone : Bool := match s.step? x.sid with
    | some st => st.ended.isSome
    | none => false
  if gone then 2
  else match x.part with
    | some p => if s.isolated p && s.rbit .mode 1 p then 4 else 3
    | none => 3

/-- The fault-log entry of a detection concerning a command (Table 14.3). -/
def State.logFor (s : State) (x : Ctx) (cls island action loc detail : Nat) : State :=
  s.logFault { cls := cls, island := island, action := action, queue := x.id.q, tenant := whoOf x.fn
               part := x.part.getD 0xFF
               stepId := s.stepIdOf x.sid
               loc := loc, detail := detail }

/-- Number of the slice a command is in, 0 for a command that is not sliced (R313). -/
def Ctx.sliceNo (x : Ctx) : Nat :=
  match x.work with
  | .units _ _ _ sl _ _ => sl
  | _ => 0

/-- The class of a poisoned delivery (Table 14.1): 4; of an access refused by parity 14, or 15 at the sealed port (R309). -/
def State.poisonClass (s : State) (x : Ctx) (line : Nat) : Nat :=
  if !s.mem.tagErrs.contains (line / 32768) then 4
  else match (s.mem.pages.get (line / 32768)).map with
    | some k => if x.op / 16 == 7 && (s.mem.maps.get k).sealed then 15 else 14
    | none => 14

/-- A poisoned line was delivered to a command (R224), or an access was refused as one (R309): counted, logged, and the command handed to the
fault policy. -/
def State.poisoned (s : State) (x : Ctx) (line slice : Nat) : State :=
  let c := chanOf (line * 64)
  let s1 := (s.meetLine line).radd32 .poisonReads c 0 1
  let isl := 16 + c / 8
  let cls := s.poisonClass x line
  (s1.logFor x cls isl (s1.policyAction x) (memLoc line) (line % 32768 * 64)).toPolicy x.id cls isl 0 slice

/-- DETAIL of a command whose host access failed (R354): class 9, island 28, the slice number. -/
def hostDetail (slice : Nat) : W32 := faultDetail 9 28 0 slice

/-- Ends a command on a failed access, by the kind of failure: ST_RANGE at the operand's word (R215), the fault policy
(R224), or ST_FAULT of a host access (R354), which is logged with class 9.  A held access waits: the command stays where it is, and what it has
paid for the access stands (R219). -/
def State.failCmd (s : State) (x : Ctx) (word slice : Nat) (e : Fail) : State :=
  match e with
  | .range => (s.releaseCtx x.id).finish x.id stRange (w32 word)
  | .poison l => s.poisoned x l slice
  | .held c => s.updCtx x.id fun y => { y with paid := c * 2 ^ 64 + 2 ^ 63 }
  | .host => ((s.releaseCtx x.id).logFor x 9 28 2 0 x.op).finish x.id stFault (hostDetail slice)

/-- The same for an access that has not been paid for. -/
def State.failFirst (s : State) (x : Ctx) (word slice : Nat) (e : Fail) : State :=
  match e with
  | .held c => s.heldUp x c
  | _ => s.failCmd x word slice e

end Sys2Proof.Machine
end

