-- ==== Sys2Proof/Machine/Queues.lean ====
section
/-! DEFINITION. Queues and event rings: doorbells, enable, disable, pause, restart, queue ranges, event-ring control, and
the fetch turn (R21, R23, R27, R28, R38 to R43, R48, R49). -/

namespace Sys2Proof.Machine

/-- A ring of `n` bytes at a base passes the address check of R23. -/
def State.ringOk (s : State) (fn : Nat) (a : W64) (n : Nat) : Bool :=
  if isDev a then s.extOk fn (offOf a) n && !s.extSealed fn (offOf a) n else decide (offOf a + n ≤ 2 ^ 63)

/-- The check of a queue when it is enabled (R23): cause 3 or 4 of the first check that fails, with the address reported. -/
def State.queueCheck (s : State) (q : Nat) : Option (Nat × W64) :=
  let Q := s.queue q
  let fn := s.owner q
  if Q.log2 < 6 ∨ 16 < Q.log2 then some (3, Q.ringBase)
  else if !s.ringOk fn Q.ringBase (64 * Q.entries) then some (4, Q.ringBase)
  else if !s.ringOk fn Q.cplBase (16 * Q.entries) then some (4, Q.cplBase)
  else none

/-- A function reaches a queue's registers: the PF every queue, a VF its own (R369). -/
def State.reaches (s : State) (fn q : Nat) : Bool := fn == 0 || s.owner q == fn

/-- The queue belongs to a partition in reset, whose control writes have no effect (Table 14.9). -/
def State.qResetting (s : State) (q : Nat) : Bool :=
  match s.queuePart q with
  | some p => s.pstate p == 4
  | none => false

/-- QUEUE_ENABLE (R23, R41, R51): a write of ENABLE = 1 to a DISABLED queue of a bound owner zeroes its counts and checks
it; any other such write has no effect. -/
def State.queueEnable (s : State) (fn q : Nat) : State :=
  if !s.reaches fn q || !s.ownerBound q || s.qResetting q || (s.queue q).mode ≠ .disabled then s
  else
    let s1 := s.updQueue q fun Q =>
      { Q with enable := true, mode := .running, cause := 0, head := 0, tail := 0, done := 0, reads := [], holds := []
               openSid := none, grant := 0 }
    match s1.queueCheck q with
    | some (c, a) => s1.faultQueue q c a
    | none => s1

/-- QUEUE_DISABLE (R41, R42): fetching stops; held records are discarded; the queue is DISABLED when nothing is in flight. -/
def State.queueDisable (s : State) (fn q : Nat) : State :=
  let Q := s.queue q
  if !s.reaches fn q || s.qResetting q || !Q.enable then s
  else
    let held := decide (Q.mode = .faulted ∧ Q.cause = 2)
    let s1 := if held then
        s.withCp fun c => { c with ctxs := c.ctxs.map fun x =>
          if x.id.q = q ∧ x.phase = .done then { x with dropped := true } else x }
      else s
    let s2 := s1.updQueue q fun Q =>
      { Q with
        enable := false, reads := [], holds := [], cause := 0, grant := 0
        mode := if Q.inflight = 0 then .disabled else .stopping }
    State.drain 65 s2.release q

/-- QUEUE_PAUSE (Table 02.12): sets or clears PAUSE. -/
def State.queuePause (s : State) (fn q : Nat) (v : Bool) : State :=
  if !s.reaches fn q || s.qResetting q then s else s.updQueue q fun Q => { Q with pause := v }

/-- QUEUE_RESTART (R42): in FAULTED, writes held records and resumes at Q_HEAD; causes 3 and 4 are checked again. -/
def State.queueRestart (s : State) (fn q : Nat) : State :=
  let Q := s.queue q
  if !s.reaches fn q || s.qResetting q || Q.mode ≠ .faulted then s
  else
    let go := (s.updQueue q fun Q => { Q with mode := .running, cause := 0 })
    if Q.cause = 3 ∨ Q.cause = 4 then
      match s.queueCheck q with
      | some _ => s
      | none => State.drain 65 go q
    else State.drain 65 go q

/-- QUEUE_RANGE_WRITE (R21): a PF write of TEN.QUEUE_RANGE, without effect if it overlaps another tenant's range, if a
queue of the tenant is not DISABLED, or if the bound tenant's partition does not contain it.  DESIGN CHOICE (log 61): an empty range
whose FIRST lies outside the partition's range counts as not contained. -/
def State.queueRangeWrite (s : State) (t : Nat) (v : Nat) : State :=
  let first := fld v 0 14
  let count := fld v 16 12
  let cl := (List.range 64).any fun k =>
    k ≠ t && decide (0 < count) && decide (0 < (s.qRange k).2) && overlap first count (s.qRange k).1 (s.qRange k).2
  let active := s.cp.queues.ents.any fun e => s.owner e.1 = vf t && e.2.mode ≠ .disabled
  let contained := match s.tenPart t with
    | some p => decide (s.rfld .queues 0 14 p ≤ first) &&
        decide (first + count ≤ s.rfld .queues 0 14 p + s.rfld .queues 16 15 p)
    | none => true
  if cl || active || !contained then s else s.rput .queueRange t 0 (first + count * 65536)

/-! ### Doorbells (R27, R28) -/

/-- Rejection: counted, and DOORBELL_REJECTED raised on the writer's ring (R28, R371). -/
def State.dbReject (s : State) (fn idx q tail reason : Nat) : State :=
  (s.radd32 .dbReject fn 0 1).event fn { code := 0x0201, island := 28, queue := q, d0 := idx, d1 := tail, d2 := reason }

/-- Table 02.3 for a written TAIL `V`: the reason of a rejection, or acceptance. -/
def Queue.dbJudge (Q : Queue) (V : W32) : Option Nat :=
  if Q.mode ≠ .running then some 3
  else if V = Q.tail then none
  else if 2 ^ 31 ≤ (V - Q.tail).toNat then some 1
  else if Q.entries < (V - Q.done).toNat then some 2
  else none

/-- A doorbell write at offset `off` of BAR2 (R27): taken at 8i as 32 or 64 bits, discarded otherwise. -/
def State.doorbell (s : State) (fn off size : Nat) (v : W64) : State :=
  if off % 8 ≠ 0 ∨ (size ≠ 4 ∧ size ≠ 8) then s
  else
    let i := off / 8
    let hi := if size = 8 then v.toNat / 2 ^ 32 else 0
    let V := w32 v.toNat
    let mine : Option Nat := match tenantOf fn with
      | some t => if i < (s.qRange t).2 then some ((s.qRange t).1 + i) else none
      | none => if s.owner i = 0 then some i else none
    if hi ≠ 0 then s.dbReject fn i (mine.getD 0xFFFF) V.toNat 5
    else match mine with
      | none => s.dbReject fn i 0xFFFF V.toNat 4
      | some q =>
        match (s.queue q).dbJudge V with
        | some r => s.dbReject fn i q V.toNat r
        | none => s.updQueue q fun Q => { Q with tail := V }

/-! ### Event rings (R39) -/

/-- EVQ_ENABLE (R39): a write of ENABLE = 1 while 0 starts the ring if its size and base pass. -/
def State.evqEnable (s : State) (fn : Nat) : State :=
  let k := s.rfld .evqCtrl 8 5 fn
  if s.rbit .evqCtrl 0 fn || decide (k < 6) || decide (16 < k) ||
     !s.ringOk fn (ringAddr (s.rget ⟨.evqBase, fn, 0⟩)) (32 * 2 ^ k) then s
  else ((s.rput .evqHead fn 0 0).rput .evqTail fn 0 0).rsetFld .evqCtrl 0 1 1 fn

/-- EVQ_HEAD_WRITE (R39): takes effect only between the present head and the tail. -/
def State.evqHeadWrite (s : State) (fn : Nat) (h : W32) : State :=
  let tail := w32 (s.rnat .evqTail fn)
  let head := w32 (s.rnat .evqHead fn)
  if (tail - h).toNat ≤ (tail - head).toNat then s.rput .evqHead fn 0 h.toNat else s

/-! ### Fetch turns (R43) -/

/-- Group of a queue in the fetch rotation: its partition, or 16 for PF queues in no partition's range. -/
def State.fetchGroup (s : State) (q : Nat) : Nat := (s.queuePart q).getD 16

/-- A queue is eligible for a fetch turn (R43): RUNNING with work, not held or paused, fewer than 4 reads outstanding, and a read would
not pass 64 packets in flight (R48), and its owner runs work (R51); in a DRAINING partition only within a step already open and one packet at a time (R69). -/
def State.eligible (s : State) (q : Nat) : Bool :=
  let Q := s.queue q
  decide (Q.mode = .running) && !Q.pause && Q.holds.isEmpty && Q.nextRead != Q.tail && decide (Q.reads.length < 4) &&
  decide ((Q.nextRead - Q.done).toNat < 64) && s.ownerBound q &&
  (match s.queuePart q with
    | some p =>
      let st := s.pstate p
      st != 3 && st != 4 && (st != 2 || (Q.openSid.isSome && Q.reads.isEmpty))
    | none => true)

/-- Reads outstanding device-wide. -/
def State.readsOut (s : State) : Nat := s.cp.queues.ents.foldl (fun n e => n + e.2.reads.length) 0

/-- The next of a list of numbers after `k` in cyclic order. -/
def nextAfter (k : Nat) (l : List Nat) : Option Nat :=
  match (l.filter fun x => k < x).min? with
  | some x => some x
  | none => l.min?

/-- The read a turn issues on a queue, or the hold it meets (R43, R48). -/
def State.turnOn (s : State) (q : Nat) : State :=
  let Q := s.queue q
  let first := Q.nextRead
  let room := 64 - (first - Q.done).toNat
  let avail := s.ctxAvail (s.queuePart q) + Q.grant
  if avail = 0 then s.hold q 2
  else
    let slot := first.toNat % Q.entries
    let lim := if (match s.queuePart q with
      | some p => s.pstate p == 2
      | none => false) then 1 else 8
    let n := min (min lim (Q.tail - first).toNat) (min (Q.entries - slot) (min room avail))
    s.updQueue q fun Q => { Q with reads := Q.reads ++ [⟨first, n, s.now⟩], grant := 0 }

/-- One fetch turn (R43): the next group in rotation with an eligible queue, and its next eligible queue. -/
def State.fetchTurn (s : State) : State :=
  if s.cp.halted || decide (256 ≤ s.readsOut) then s
  else
    let qs := (s.cp.queues.ents.map (·.1)).filter s.eligible
    match nextAfter s.cp.rotGroup (qs.map s.fetchGroup) with
    | none => s
    | some g =>
      match nextAfter (s.cp.rotQueue.get g) (qs.filter fun q => s.fetchGroup q = g) with
      | none => s
      | some q =>
        (s.turnOn q).withCp fun c => { c with rotGroup := g, rotQueue := c.rotQueue.set g q }

/-- BACKPRESSURE of a hold that reached the partition's threshold, once per hold (R49). -/
def State.backpressure (s : State) (q cause : Nat) : State :=
  match s.queuePart q, (s.queue q).holds.find? (fun h => h.cause = cause) with
  | some p, some h =>
    let th := s.rnat .bpThresh p cause
    if h.raised ∨ th = 0 ∨ ticks h.since s.now < th then s
    else
      let s1 := s.updQueue q fun Q => { Q with holds := Q.holds.map fun k => if k.cause = cause then { k with raised := true } else k }
      s1.event (s.owner q) { code := 0x0202, island := 29, queue := q, d0 := cause, d1 := ticks h.since s.now % 2 ^ 32, d2 := p }
  | _, _ => s

end Sys2Proof.Machine
end

