-- ==== Sys2Proof/Machine/Pages.lean ====
section
/-! DEFINITION. The page allocator, the zero engine, and host access through BAR4 (R211 to R216, R224, R227). -/

namespace Sys2Proof.Machine

/-! ### Unmapping -/

/-- Every page of a function's map whose index a test picks is invalidated and released (R215, R319). -/
def State.unmapIf (s : State) (fn : Nat) (p : Nat → Bool) : State :=
  s.mem.maps.ents.foldl (fun t e =>
    if e.1.1 = fn ∧ e.2.valid ∧ p e.1.2 then
      (t.withMem fun m => { m with maps := m.maps.clear e.1 }).unholdPage e.2.page
    else t) s

/-! ### Choosing pages (R213, R214) -/

/-- Pages of a channel an allocation may take: FREE, or DIRTY and unclaimed (R213, rule 3). -/
def State.chanAvail (s : State) (c : Nat) : Nat :=
  let es := s.mem.pages.ents.filter fun e => e.1 / 768 = c
  768 - (es.filter fun e => e.2.st ≠ .free).length + (es.filter fun e => e.2.st = .dirty ∧ e.2.claim = none ∧ e.2.map = none ∧ e.2.dev = none).length

/-- The page a channel gives next: the FREE page with the lowest number, else the oldest unclaimed DIRTY page (R214). -/
def State.chanNext (s : State) (c : Nat) : Option Nat :=
  match (List.range 768).find? fun i => (s.mem.pages.get (768 * c + i)).st = .free with
  | some i => some (768 * c + i)
  | none => (s.mem.dirty.get (c / 8)).find? fun p =>
      let g := s.mem.pages.get p
      p / 768 = c && g.claim == none && g.map == none && g.dev == none

/-- The channels a mask allows; all zero allows every channel (Table 10.2). -/
def maskChans (mask : W64) : List Nat :=
  if mask = 0 then List.range 64 else (List.range 64).filter fun c => bit mask.toNat c

/-- Who takes pages: a function's map from an index, or a tenant's device-managed structure. -/
inductive Taker where
  | map (fn idx : Nat) (sealed : Bool)
  | dev (t : Nat)
deriving DecidableEq, Repr

/-- Takes one page for the `k`-th place of a taker: a FREE page is installed at once, a DIRTY page is claimed (R213). -/
def State.takePage (s : State) (id : CtxId) (w : Taker) (part k p : Nat) : State :=
  let g := s.mem.pages.get p
  let isl := pageIsland p
  let at' : Option (Nat × Nat) := match w with
    | .map fn idx _ => some (fn, idx + k)
    | .dev _ => none
  let dv : Option Nat := match w with
    | .map .. => none
    | .dev t => some t
  let seald := match w with
    | .map _ _ b => b
    | .dev _ => false
  if g.st = .free then
    (s.withMem fun m =>
      { m with
        pages := m.pages.set p ⟨.held, part, dv, at', none⟩
        maps := match at' with
          | some e => if seald then m.maps.set e ⟨false, p, true, part, true⟩ else m.maps.set e ⟨true, p, false, part, false⟩
          | none => m.maps }).rput .freePages isl 0 (s.rnat .freePages isl - 1)
  else
    s.withMem fun m =>
      { m with
        pages := m.pages.set p ⟨.dirty, part, dv, at', some id⟩
        maps := match at' with
          | some e => m.maps.set e ⟨false, p, seald, part, true⟩
          | none => m.maps }

/-- Deals `n` pages over channels: round the rotation with PACK = 0, filling the lowest first with PACK = 1 (R214).
Answers the state and the pages in order. -/
def State.dealPages (id : CtxId) (w : Taker) (part : Nat) (pack : Bool) :
    (n : Nat) → (k : Nat) → State → (rot : List Nat) → List Nat → State × List Nat
  | 0, _, s, _, acc => (s, acc.reverse)
  | n + 1, k, s, rot, acc =>
    match rot.find? fun c => (s.chanNext c).isSome with
    | none => (s, acc.reverse)
    | some c =>
      match s.chanNext c with
      | none => (s, acc.reverse)
      | some p =>
        let rest := rot.dropWhile (· ≠ c)
        let rot' := if pack then rest else rest.drop 1 ++ (rot.takeWhile (· ≠ c)) ++ [c]
        State.dealPages id w part pack n (k + 1) (s.takePage id w part k p) rot' (p :: acc)

/-- Pages claimed for a command that still wait for the zero engine. -/
def State.claimsOf (s : State) (id : CtxId) : Nat := (s.mem.pages.ents.filter fun e => e.2.claim = some id).length

/-- An allocation of `n` pages (R213 rules 2 and 3): the failing DETAIL, or the state with the pages claimed and their list. -/
def State.allocPages (s : State) (id : CtxId) (w : Taker) (part : Nat) (mask : W64) (pack : Bool) (n : Nat) :
    Except W32 (State × List Nat) :=
  let cs := maskChans mask
  if s.rfld .memQuota 0 16 part < s.rnat .memHeld part + n then .error 1
  else if (cs.foldl (fun k c => k + s.chanAvail c) 0) < n then .error 2
  else
    let (t, l) := State.dealPages id w part pack n 0 s cs []
    .ok (t.rput .memHeld part 0 (s.rnat .memHeld part + n), l)

/-! ### PAGE_ALLOC and PAGE_FREE -/

/-- The partition PAGE_ALLOC and SEAL_ALLOC charge: the tenant's own, or for the PF the one named by PART (Table 10.2). -/
def allocPart (x : Ctx) : Nat := if x.fn = 0 then fld (x.w 2) 16 4 else x.part.getD 0

/-- Any entry of a run of map entries is VALID or claimed (R213, rule 1). -/
def State.entsTaken (s : State) (fn idx n : Nat) : Bool :=
  (List.range n).any fun i =>
    let e := s.mem.maps.get (fn, idx + i)
    e.valid || e.claimed

/-- Pages of a run of entries, in entry order. -/
def State.entPages (s : State) (fn idx n : Nat) : List Nat := (List.range n).map fun i => (s.mem.maps.get (fn, idx + i)).page

/-- Completes a PAGE_ALLOC whose entries are all installed: writes LIST_ADDR, then ST_DONE (R213). -/
def State.allocDone (s : State) (x : Ctx) (waited : Nat) : State :=
  let n := fld (x.w 2) 0 16
  let la := x.a 6
  let list := ((s.entPages x.fn (fld (x.w 3) 0 15) n).map fun p => toBytes 4 p).flatten
  let done (t : State) := t.finish x.id stDone (w32 (n % 65536 + sat 65535 waited * 65536))
  if la = 0 then done s
  else s.gate x (stackBytes la (4 * n)) fun u => match u.opWrite x.fn la list with
    | (t, none) => done t
    | (t, some e) => t.failCmd x 6 0 e

/-- PAGE_ALLOC (R213). -/
def State.pageAlloc (s : State) (x : Ctx) : State :=
  let n := fld (x.w 2) 0 16
  let idx := fld (x.w 3) 0 15
  if s.entsTaken x.fn idx n then s.finish x.id stRefused 1
  else match s.allocPages x.id (.map x.fn idx false) (allocPart x) (x.a 4) (bit (x.w 2) 20) n with
    | .error d => s.finish x.id stNoResource d
    | .ok (t, _) =>
      let k := t.claimsOf x.id
      let u := t.updCtx x.id fun y => { y with phase := .running, work := .waits s.now k 0 }
      if k = 0 then u.allocDone x 0 else u

/-- PAGE_FREE (R215): all or nothing; sealed entries are refused (R274). -/
def State.pageFree (s : State) (x : Ctx) : State :=
  let n := fld (x.w 2) 0 16
  let idx := fld (x.w 3) 0 15
  let es := (List.range n).map fun i => s.mem.maps.get (x.fn, idx + i)
  if es.any fun e => !e.valid then s.finish x.id stRefused 2
  else if es.any fun e => e.sealed then s.finish x.id stSealedDenied 3
  else ((List.range n).foldl (fun t i => t.unmapIf x.fn fun j => j == idx + i) s).finish x.id stDone (w32 n)

/-- The zero engine finishes the head of an island's dirty list (R216): it is FREE, or installed for its claim.  Answers the
command whose last claimed page this was.  Its 512 requests of 4 KiB are paid for as the zeroing account allows; the page waits until all of
them are (R79, R81), and while a line of it is held (R17, R219). -/
def State.zeroPage (s : State) (m : Nat) : State × Option CtxId :=
  match s.mem.dirty.get m with
  | [] => (s, none)
  | p :: rest =>
    let (s0, n) := s.payPart [.bg 3] 4096 (512 * 4096 - s.mem.zeroPaid.get m) 0xFF none
    let paid := s.mem.zeroPaid.get m + n
    if paid < 512 * 4096 ∨ (s.mem.retry.any fun r => decide (r.line / 32768 = p)) ∨ s.mem.quiesce.contains (p / 768) ∨ !s.clockOn (16 + m) then
      (s0.withMem fun x => { x with zeroPaid := x.zeroPaid.set m paid }, none)
    else
      let g := s.mem.pages.get p
      let s1 := s0.withMem fun x =>
        { x with
          zeroPaid := x.zeroPaid.set m 0
          errs := x.errs.filter fun e => e.line / 32768 ≠ p
          bytes := memZero x.bytes (pageSize * p) pageSize
          poison := x.poison.filter fun l => l / 32768 ≠ p
          plist := x.plist.filter fun l => l / 32768 ≠ p
          dirty := x.dirty.set m rest }
      let s2 := (s1.radd32 .zeroed m 0 1).rput .dirtyPages m 0 (s1.rnat .dirtyPages m - 1)
      match g.claim with
      | none =>
        ((s2.withMem fun x => { x with pages := x.pages.set p ⟨.free, 0, none, none, none⟩ }).rput .freePages m 0
          (s2.rnat .freePages m + 1), none)
      | some id =>
        let s3 := s2.withMem fun x =>
          { x with
            pages := x.pages.set p ⟨.held, g.part, g.dev, g.map, none⟩
            maps := match g.map with
              | some e => x.maps.upd e fun en => if en.sealed then en else { en with valid := true, claimed := false }
              | none => x.maps }
        (s3, if s3.claimsOf id = 0 then some id else none)

/-- A PAGE_ALLOC whose last claimed page is installed completes (R213); one whose list waits on an account stays in its place (R81). -/
def State.allocZeroed (s : State) (x : Ctx) : State :=
  match x.work with
  | .waits _ k _ => if s.claimsOf x.id = 0 then s.allocDone x k else s
  | _ => s

/-! ### BAR4 (R211) -/

/-- BAR4_ACCESS (R211, R224): a host access through the function's own map.  A read answers with data, zeros where refused,
and a poisoned TLP with zero data on a poisoned line; a refused write is discarded.  Each refusal is counted for a tenant.  An access that is
held has not come through yet (R17, R219). -/
def State.bar4 (s0 : State) (fn off len : Nat) (write : Option (List W8)) : State :=
  let s := if write.isNone && s0.extOk fn off len && !s0.extSealed fn off len then s0.meetExt fn off len else s0
  let ok := s.extOk fn off len && !s.extSealed fn off len
  -- an access refused by parity is logged (R309)
  let log (t : State) : State := match (t.linesOf fn off len).find? fun l => t.mem.tagErrs.contains (l / 32768) with
    | some l => t.logMem l 14 0
    | none => t
  let denied := match tenantOf fn with
    | some t => s.radd32 .memBarDenied t 0 1
    | none => s
  match write with
  | none =>
    if !ok then denied.send (.readData fn (List.replicate len 0) false)
    else match s.devRead fn off len with
      | .error (.held _) => s
      | .ok bs => s.send (.readData fn bs false)
      | .error (.poison l) => ((log s).radd32 .poisonReads (chanOf (l * 64)) 0 1).send (.readData fn (List.replicate len 0) true)
      | .error _ => s.send (.readData fn (List.replicate len 0) false)
  | some bs =>
    if !ok then denied
    else if (s.extHeld fn off bs.length).isSome then s
    else
      -- every line but a poisoned one is stored (R224)
      (List.range (cdiv (off % 64 + bs.length) 64)).foldl (fun t i =>
        let a := if i = 0 then off else (off / 64 + i) * 64
        let piece := (bs.drop (a - off)).take (64 - a % 64)
        match t.lineWrite (t.phys fn a) piece with
        | .ok t' => t'
        | .error _ => t) (log s)

end Sys2Proof.Machine
end

