-- ==== Sys2Proof/Machine/Toy.lean ====
section
/-! DEFINITION. The Toychest: claims, loads, evictions, pins, use counts (R56 to R62). -/

namespace Sys2Proof.Machine

/-- The state with the Toychest changed. -/
def State.withToy (s : State) (f : Toy → Toy) : State := { s with toy := f s.toy }

/-- Slots a model of `n` bytes occupies (§03.4). -/
def slotsFor (n : Nat) : Nat := cdiv n 524288

/-- The group a partition's models live in: its private slots when isolated, else the pooled group (§03.4). -/
def State.toyGroup (s : State) (p : Nat) : Nat := if s.isolated p then p + 1 else 0

/-- The slots of a group in a state; of those in ZEROING only the ones no load has claimed (R58). -/
def State.slotsIn (s : State) (g : Nat) (st : SlotSt) : List Nat :=
  (List.range 256).filter fun k =>
    let z := s.toy.slots.get k
    decide (z.group = g) && decide (z.st = st) && (decide (st ≠ .zeroing) || z.owner == none)

/-- A model by tenant and handle. -/
def State.model? (s : State) (t h : Nat) : Option Model := s.toy.models.get (t, h)

/-- The handle of the model a packet names: MATMUL with WSRC = 0 (R117), SEQ_CHUNK through its family (R243). -/
def State.handleOf (s : State) (x : Ctx) : Option Nat :=
  if x.op = 0x20 ∧ !bit (x.w 2) 10 then some (fld (x.w 2) 0 10)
  else if x.op = 0x41 then (s.seq.fams.get (x.ten, fld (x.w 2) 0 8)).map fun m => m.d.handle
  else none

/-- An in-flight context that a test picks references the model (R58). -/
def State.refd (s : State) (t h : Nat) (p : Ctx → Bool) : Bool :=
  s.cp.ctxs.any fun x => x.fn = vf t && x.phase ≠ .done && p x && s.handleOf x == some h

/-- A model is pinned: by its flag in a pooled partition, always in an isolated one (R61). -/
def State.pinned (s : State) (t : Nat) (m : Model) : Bool :=
  m.pinned || (match s.tenPart t with
    | some p => s.isolated p
    | none => false)

/-- Lower weight: F_a × slots_b against F_b × slots_a, then the older reference, then tenant and handle (R59). -/
def evictBefore (a b : (Nat × Nat) × Model) : Bool :=
  let x := a.2.use * b.2.slots.length
  let y := b.2.use * a.2.slots.length
  x < y || (x == y && (a.2.lastRef.toNat < b.2.lastRef.toNat || (a.2.lastRef == b.2.lastRef &&
    (a.1.1 < b.1.1 || (a.1.1 == b.1.1 && a.1.2 < b.1.2)))))

/-- Models whose slots lie in the pooled group, resident or LOADING. -/
def State.pooledAll (s : State) : List ((Nat × Nat) × Model) :=
  s.toy.models.ents.filterMap fun e => match e.2 with
    | some m => if (s.toy.slots.get (m.slots.headD 0)).group = 0 then some (e.1, m) else none
    | none => none

/-- Resident models whose slots lie in the pooled group. -/
def State.pooledModels (s : State) : List ((Nat × Nat) × Model) := s.pooledAll.filter fun e => e.2.resident

/-- The candidate evicted first (R59). -/
def State.victim (s : State) : Option ((Nat × Nat) × Model) :=
  (s.pooledModels.filter fun e => !s.pinned e.1.1 e.2 && !s.refd e.1.1 e.1.2 (fun _ => true)).foldl
    (fun m e => match m with
      | some v => if evictBefore e v then some e else m
      | none => some e) none

/-- A model leaves: its slots go to ZEROING (Table 03.5). -/
def State.dropModel (s : State) (k : Nat × Nat) (m : Model) : State :=
  s.withToy fun y =>
    { y with
      models := y.models.set k none
      slots := m.slots.foldl (fun sl i => sl.upd i fun z => { z with st := .zeroing, owner := none }) y.slots }

/-- Evicts candidates until the pooled group has `n` slots EMPTY or ZEROING, or none is left (R58, R59).  Answers the
number evicted. -/
def State.evictFor : (fuel : Nat) → State → (n : Nat) → (cnt : Nat) → State × Nat
  | 0, s, _, c => (s, c)
  | k + 1, s, n, c =>
    if n ≤ (s.slotsIn 0 .empty).length + (s.slotsIn 0 .zeroing).length then (s, c)
    else match s.victim with
      | none => (s, c)
      | some (key, m) =>
        let s1 := s.dropModel key m
        let s2 := match s.tenPart key.1 with
          | some p => s1.radd32 .toyEvict p 0 1
          | none => s1
        State.evictFor k s2 n (c + 1)

/-- Slots a pooled load may ever get: the pooled group less pinned models and the models, resident or LOADING, that contexts of its own
queue reference (R58). -/
def State.pooledLimit (s : State) (q : Nat) : Nat :=
  let all := ((List.range 256).filter fun k => (s.toy.slots.get k).group = 0).length
  all - (s.pooledAll.filter fun e => s.pinned e.1.1 e.2 || s.refd e.1.1 e.1.2 (fun x => x.id.q = q) ||
    (match e.2.loader with
      | some id => id.q == q
      | none => false)).foldl (fun n e => n + e.2.slots.length) 0

/-- Copy engine of the memory island that holds a device address of a function (Table 05.7). -/
def State.copyEngine (s : State) (fn : Nat) (a : W64) : Engine := .memCopy (pageIsland (s.phys fn (offOf a) / pageSize))

/-- The work of a load that has claimed its slots: it copies once every one of them is LOADING, and until then waits for those still in
ZEROING (R58). -/
def State.loadWork (s : State) (x : Ctx) (src : W64) (m : Model) : Work :=
  if m.slots.all fun k => (s.toy.slots.get k).st = .loading then .units (s.copyEngine x.fn src) m.slots.length 0 0 0 0
  else .waits s.now m.evicted 2

/-- Claims slots of a group for a load (R57, R58); `none` while there are too few.  A load of an isolated partition takes EMPTY slots; a
pooled one also those in ZEROING, which it takes as they reach EMPTY. -/
def State.claimSlots (s : State) (x : Ctx) (t h g size : Nat) (src : W64) (ev : Nat) : Option State :=
  let n := slotsFor size
  let free := s.slotsIn g .empty ++ (if g = 0 then s.slotsIn g .zeroing else [])
  if free.length < n then none
  else
    let m : Model := ⟨size, free.take n, false, false, 0, s.now, some x.id, ev⟩
    let s1 := s.withToy fun y =>
      { y with
        slots := m.slots.foldl (fun sl i => sl.upd i fun z =>
          { z with st := if z.st = .empty then .loading else z.st, owner := some (t, h) }) y.slots
        models := y.models.set (t, h) (some m) }
    some (s1.updCtx x.id fun y => { y with work := s1.loadWork x src m })

/-- Begins a load for a command (R58): ST_NO_RESOURCE when it could never fit, a claim when enough slots are EMPTY, and
otherwise a wait for slots; `aux` of the wait counts the models evicted so far. -/
def State.beginLoad (s : State) (x : Ctx) (t h size : Nat) (src : W64) (ev0 : Nat) : State :=
  let p := x.part.getD 0
  let n := slotsFor size
  if s.isolated p then
    match s.claimSlots x t h (p + 1) size src 0 with
    | some s1 => s1
    | none => s.finish x.id stNoResource 0
  else if s.pooledLimit x.id.q < n then s.finish x.id stNoResource 0
  else
    let (s1, c) := s.evictFor 257 n ev0
    match s1.claimSlots x t h 0 size src c with
    | some s2 => s2
    | none => s1.updCtx x.id fun y => { y with work := .waits s.now c 1 }

/-- The load a waiting command has in progress: handle, size, source. -/
def State.loadWanted (s : State) (x : Ctx) : Option (Nat × Nat × W64) :=
  if x.op = 0x10 then some (fld (x.w 2) 0 10, x.w 3, x.a 4)
  else match s.handleOf x with
    | some h => match s.toy.sources.get (x.ten, h) with
      | some src => some (h, src.size, src.addr)
      | none => none
    | none => none

/-- One waiting load tries again (R58, R60): one that waits for slots claims them, unless its model has come meanwhile, or comes by another
command's load; one that has claimed them copies once all of them are LOADING. -/
def State.loadAgain (s : State) (y : Ctx) : State :=
  match y.work, s.loadWanted y with
  | .waits _ c 1, some (h, size, src) =>
    (match s.model? y.ten h with
      | none => s.beginLoad y y.ten h size src c
      | some m =>
        if !m.resident then s
        else if y.op = 0x10 then s.finish y.id stDone (w32 (sat 511 m.slots.length + 512))
        else s.updCtx y.id fun z => { z with work := .none })
  | .waits _ _ 2, some (h, _, src) =>
    (match s.model? y.ten h with
      | some m => if m.loader = some y.id then s.updCtx y.id fun z => { z with work := s.loadWork y src m } else s
      | none => s)
  | _, _ => s

/-- Waiting loads try again, in fetch order, after slots or references were freed (R58). -/
def State.toyPump (s : State) : State :=
  s.cp.ctxs.foldl (fun t x =>
    match t.ctx? x.id with
    | some y => if y.phase = .done ∨ !(y.op = 0x10 ∨ y.op = 0x20 ∨ y.op = 0x41) then t else t.loadAgain y
    | none => t) s

/-- An earlier-fetched MODEL_EVICT of a handle is still in flight: what was fetched after it waits, and then finds the model absent (R62). -/
def State.evictAhead (s : State) (x : Ctx) (h : Nat) : Bool :=
  (s.cp.ctxs.takeWhile fun y => y.id ≠ x.id).any fun y =>
    y.fn = x.fn && y.op = 0x12 && y.phase ≠ .done && fld (y.w 2) 0 10 == h

/-- MODEL_LOAD (R57). -/
def State.modelLoad (s : State) (x : Ctx) : State :=
  let h := fld (x.w 2) 0 10
  if s.evictAhead x h then s
  else match s.model? x.ten h with
  | some m =>
    if m.resident then s.finish x.id stDone (w32 (sat 511 m.slots.length + 512))
    else s -- LOADING: waits for it (R60)
  | none => (s.updCtx x.id fun y => { y with phase := .running }).beginLoad { x with phase := .running } x.ten h (x.w 3) (x.a 4) 0

/-- A load's last slot is written (R57): the model is RESIDENT with F = 1, counted, its source recorded. -/
def State.loadDone (s : State) (x : Ctx) (t h : Nat) (m : Model) : State :=
  let src : Option Source := match s.loadWanted x with
    | some (_, size, a) => some ⟨a, size⟩
    | none => none
  let s1 := s.withToy fun y =>
    { y with
      models := y.models.set (t, h) (some { m with resident := true, use := 1, lastRef := s.now, loader := none })
      slots := m.slots.foldl (fun sl i => sl.upd i fun z => { z with st := .resident }) y.slots
      sources := y.sources.set (t, h) src }
  let s2 := s1.radd32 .toyLoads (x.part.getD 0) 0 1
  (if x.op = 0x10 then s2.finish x.id stDone (w32 (sat 511 m.slots.length + sat 65535 m.evicted * 65536))
  else s2.updCtx x.id fun y => { y with work := .none }).toyPump

/-- Copies one slot of a load: unit `k` of the model's image (R57).  A short last piece leaves the rest of the slot zero. -/
def State.loadUnit (s : State) (x : Ctx) (t h : Nat) (k : Nat) : State × Option Fail :=
  match s.model? t h, s.loadWanted x with
  | some m, some (_, size, src) =>
    let n := min 524288 (size - 524288 * k)
    let s := s.meetExt x.fn (offOf src + 524288 * k) n
    match s.devRead x.fn (offOf src + 524288 * k) n with
    | .ok bs =>
      let base := 524288 * m.slots.getD k 0
      (s.withToy fun y => { y with bytes := memPuts (memZero y.bytes base 524288) base bs }, none)
    | .error e => (s, some e)
  | _, _ => (s, none)

/-- Slots of the pinned models of a partition's tenants. -/
def State.pinnedSlots (s : State) (p : Nat) : Nat :=
  s.toy.models.ents.foldl (fun n e => match e.2 with
    | some k => if k.pinned && s.tenPart e.1.1 == some p then n + k.slots.length else n
    | none => n) 0

/-- MODEL_PIN (R61): SUBOP 0 pins, SUBOP 1 unpins. -/
def State.modelPin (s : State) (x : Ctx) : State :=
  let h := fld (x.w 2) 0 10
  let p := x.part.getD 0
  if s.evictAhead x h then s
  else match s.model? x.ten h with
  | none => s.finish x.id stRefused 1
  | some m =>
    if !m.resident then s.finish x.id stRefused 1
    else if s.isolated p then s.finish x.id stDone 0
    else
      let pin := x.sub = 0
      if pin ∧ !m.pinned ∧ s.rfld .toy 16 9 p < s.pinnedSlots p + m.slots.length then s.finish x.id stNoResource 0
      else (s.withToy fun y => { y with models := y.models.set (x.ten, h) (some { m with pinned := decide pin }) }).finish x.id stDone 0

/-- MODEL_EVICT (R62): clears any pin; the slots go to ZEROING once no context fetched before it references the model. -/
def State.modelEvict (s : State) (x : Ctx) : State :=
  let h := fld (x.w 2) 0 10
  if s.evictAhead x h then s
  else match s.model? x.ten h with
  | none => s.finish x.id stDone 1
  | some m =>
    let earlier := s.cp.ctxs.takeWhile fun y => y.id ≠ x.id
    let busy := !m.resident || earlier.any fun y => y.fn = x.fn && y.phase ≠ .done && s.handleOf y == some h
    let s1 := s.withToy fun y => { y with models := y.models.set (x.ten, h) (some { m with pinned := false }) }
    if busy then s1.updCtx x.id fun y => { y with phase := .running, work := .waits s.now 0 0 }
    else ((s1.dropModel (x.ten, h) m).finish x.id stDone 0).toyPump

/-- A command that names a model finds it: RESIDENT; on its way (it waits); or absent (R60).  A command fetched after a
MODEL_EVICT still in progress waits for it and then finds the model absent (R62). -/
inductive ModelState where
  | ready (m : Model)
  | wait
  | absent
deriving DecidableEq, Repr

/-- Where the model of a command stands. -/
def State.modelState (s : State) (x : Ctx) (h : Nat) : ModelState :=
  if s.evictAhead x h then .wait
  else match s.model? x.ten h with
    | some m => if m.resident then .ready m else .wait
    | none => .absent

/-- R60 for a command whose model is absent: the miss is counted, and with AUTOLOAD and a recorded source the load begins;
otherwise the command completes with ST_NO_RESOURCE. -/
def State.autoload (s : State) (x : Ctx) (h : Nat) : State :=
  let p := x.part.getD 0
  let s1 := s.radd32 .toyMisses p 0 1
  match s.rbit .mode 2 p, s.toy.sources.get (x.ten, h) with
  | true, some src => s1.beginLoad x x.ten h src.size src.addr 0
  | _, _ => s1.finish x.id stNoResource 0

/-- TOYCHEST_SLOT_ZEROED (R63): a slot in ZEROING whose cell's clock runs is zero and EMPTY, or LOADING at once where a load has claimed
it (R58); waiting loads go on. -/
def State.slotZeroed (s : State) (k : Nat) : State :=
  let z := s.toy.slots.get k
  if z.st = .zeroing ∧ s.rfld .islStatus 0 12 (k / 16) ≠ 0 then
    (s.withToy fun y =>
      { y with
        slots := y.slots.set k { z with st := if z.owner = none then .empty else .loading }
        bytes := memZero y.bytes (524288 * k) 524288 }).toyPump
  else s

/-- TOY_USE_DECAY (R59): at every 64th boundary each F is halved, rounding down. -/
def State.toyDecay (s : State) : State :=
  if s.toy.boundaries < 64 then s
  else s.withToy fun y =>
    { y with
      boundaries := y.boundaries - 64
      models := y.models.mapV fun _ m => m.map fun m => { m with use := m.use / 2 } }

/-- A byte of a resident model's image (R56). -/
def State.modelByte (s : State) (m : Model) (o : Nat) : W8 :=
  memGet s.toy.bytes (524288 * m.slots.getD (o / 524288) 0 + o % 524288)

end Sys2Proof.Machine
end

