-- ==== Sys2Proof/Machine/Epoch.lean ====
section
/-! DEFINITION. Epochs: shadows, the commit checks, the atomic application and drain-and-switch (R50, R53, R65 to R72). -/

namespace Sys2Proof.Machine

/-- An epoch is open (GLB.EPOCH_CTRL.OPEN). -/
def State.epochOpen (s : State) : Bool := s.rbit .epochCtrl 0
/-- An EPOCH_COMMIT is in progress (PENDING). -/
def State.epochPending (s : State) : Bool := s.rbit .epochCtrl 1

/-- The shadow copy of a register: the last value written in the open epoch, else the value in force (R65). -/
def State.shadowOf (s : State) (r : Reg) : W64 :=
  match assoc? s.rf.shadow r with
  | some v => v
  | none => s.rget r

/-- EPOCH_OPEN (R65): a write of OPEN = 1; every shadow takes the value in force.  While an epoch is open it has no effect. -/
def State.openEpoch (s : State) : State :=
  if s.epochOpen then s else ({ s with rf := { s.rf with shadow := [] } }).rput .epochCtrl 0 0 1

/-- EPOCH_ABANDON (R65): a write of OPEN = 0 while not PENDING discards every shadow. -/
def State.abandonEpoch (s : State) : State :=
  if !s.epochOpen || s.epochPending then s
  else ({ s with rf := { s.rf with shadow := [], staged := s.rf.staged.filter fun e => !e.1.shadow } }).rput .epochCtrl 0 0 0

/-- A PF write to RWE fields of a register (R7, R65): stores into the shadow while an epoch is open and not PENDING,
otherwise it is discarded and counted. -/
def State.rweWrite (s : State) (r : Reg) (mask v : Nat) : State :=
  if s.epochOpen && !s.epochPending then
    let o := (s.shadowOf r).toNat
    { s with rf := { s.rf with shadow := assocSet s.rf.shadow r (w64 ((o - (o &&& mask)) + (v &&& mask))) } }
  else s.radd32 .epochDiscards 0 0 1

/-- A number of a register in the shadow set. -/
def State.snat (s : State) (n : RegName) (i : Nat) : Nat := (s.shadowOf ⟨n, i, 0⟩).toNat

/-- Partition a tenant is bound to in the shadow set. -/
def State.sPart (s : State) (t : Nat) : Option Nat :=
  let v := s.snat .partition t
  if bit v 7 then some (fld v 0 4) else none

/-- Number of set bits among the low `n`. -/
def popCount (n v : Nat) : Nat := (List.range n).foldl (fun k b => k + b01 (bit v b)) 0

/-- Sum over the partitions. -/
def sumParts (f : Nat → Nat) : Nat := (List.range 16).foldl (fun n p => n + f p) 0

/-- Two different partitions stand in a relation. -/
def anyPair (f : Nat → Nat → Bool) : Bool := (List.range 16).any fun p => (List.range 16).any fun q => decide (p < q) && f p q

/-- R53: the shadow set is one the device accepts. -/
def State.r53 (s : State) : Bool :=
  let cells p := fld (s.snat .cells p) 0 16
  let qf p := fld (s.snat .queues p) 0 14
  let qc p := fld (s.snat .queues p) 16 15
  let iso p := bit (s.snat .mode p) 0
  let priv p := fld (s.snat .toy p) 0 9
  let pinMax p := fld (s.snat .toy p) 16 9
  !(anyPair fun p q => cells p &&& cells q ≠ 0) &&
  !(anyPair fun p q => decide (0 < qc p) && decide (0 < qc q) && overlap (qf p) (qc p) (qf q) (qc q)) &&
  ((List.range 64).all fun t => match s.sPart t with
    | some p => decide (qf p ≤ (s.qRange t).1) && decide ((s.qRange t).1 + (s.qRange t).2 ≤ qf p + qc p)
    | none => true) &&
  decide (sumParts (fun p => fld (s.snat .memQuota p) 0 16) ≤ 49152) &&
  ((List.range 16).all fun p => decide (fld (s.snat .rowcache p) 0 8 ≤ 8 * popCount 16 (cells p))) &&
  ((List.range 16).all fun p => if iso p then pinMax p == 0 else priv p == 0) &&
  ((List.range 16).all fun p => iso p || !bit (s.snat .mode p) 1) &&
  decide (sumParts priv + sumParts pinMax ≤ 256) &&
  ((List.range 64).all fun t => match s.sPart t with
    | some p => cells p != 0
    | none => true) &&
  decide (sumParts (fun p => fld (s.snat .inflightRsv p) 0 13) ≤ 4096) &&
  decide (sumParts (fun p => fld (s.snat .inflightRsv p) 16 11) ≤ 1024) &&
  decide (sumParts (fun p => fld (s.snat .inflightRsv p) 32 11) ≤ 1024)

/-- The tenant a page counts for, while HELD or claimed: by its map's function, or as device-managed (R212). -/
def Page.tenant (g : Page) : Option Nat :=
  if g.st = .held ∨ g.claim.isSome then
    match g.dev, g.map with
    | some t, _ => some t
    | none, some k => tenantOf k.1
    | none, none => none
  else none

/-- Pages of a tenant that count against a partition. -/
def State.pagesIn (s : State) (t p : Nat) : Nat := (s.mem.pages.ents.filter fun e => e.2.tenant == some t && e.2.part == p).length

/-- Pages of a tenant that its move to a partition brings there. -/
def State.pagesTo (s : State) (t p : Nat) : Nat := (s.mem.pages.ents.filter fun e => e.2.tenant == some t && e.2.part != p).length

/-- Reason 5 (Table 03.10): a quota below use after the moves of tenants. -/
def State.quotaBelowUse (s : State) : Bool :=
  let moved := (List.range 64).filterMap fun t => match s.sPart t with
    | some b => if s.tenPart t = some b then none else some (t, b)
    | none => none
  let come p := moved.foldl (fun n e => if e.2 = p then n + s.pagesTo e.1 p else n) 0
  let go p := moved.foldl (fun n e => if e.2 = p then n else n + s.pagesIn e.1 p) 0
  let held p := s.rnat .memHeld p + come p - go p
  let slotsOf p := s.toy.models.ents.foldl (fun n e => match e.2 with
    | some m => if m.resident ∧ s.sPart e.1.1 = some p then n + m.slots.length else n
    | none => n) 0
  (List.range 16).any fun p =>
    decide (fld (s.snat .memQuota p) 0 16 < held p) ||
    (bit (s.snat .mode p) 0 && decide (fld (s.snat .toy p) 0 9 < slotsOf p))

/-- Reason 8: the private slots of the shadow set need slots that pinned models in the pooled group hold. -/
def State.pinnedInWay (s : State) : Bool :=
  let stay := s.pooledModels.foldl (fun n e =>
    let isoNew := match s.sPart e.1.1 with
      | some p => bit (s.snat .mode p) 0
      | none => false
    if e.2.pinned && !isoNew then n + e.2.slots.length else n) 0
  decide (256 < sumParts (fun p => if bit (s.snat .mode p) 0 then fld (s.snat .toy p) 0 9 else 0) + stay)

/-- Partition `p` has a non-atomic change (Table 03.9). -/
def State.nonAtomic (s : State) (p : Nat) : Bool :=
  s.snat .cells p != s.rnat .cells p || s.snat .queues p != s.rnat .queues p ||
  s.snat .memQuota p != s.rnat .memQuota p || s.snat .rowcache p != s.rnat .rowcache p ||
  bit (s.snat .mode p) 0 != s.rbit .mode 0 p || fld (s.snat .toy p) 0 9 != s.rfld .toy 0 9 p

/-- The partitions a drain-and-switch epoch affects (R66). -/
def State.affectedParts (s : State) : List Nat :=
  (List.range 16).filter fun p => s.nonAtomic p ||
    (List.range 64).any fun t => s.snat .partition t != s.rnat .partition t && (s.tenPart t == some p || s.sPart t == some p)

/-- Any change of the shadow set is non-atomic (Table 03.9), whether or not it affects a partition. -/
def State.nonAtomicChange (s : State) : Bool :=
  (List.range 16).any s.nonAtomic || (List.range 64).any fun t => s.snat .partition t != s.rnat .partition t

/-- An affected partition is RESETTING, or a VF bound to it is in a function-level reset (Table 14.9). -/
def State.inRecovery (s : State) (ps : List Nat) : Bool :=
  ps.any fun p => s.pstate p == 4

/-- The reason an EPOCH_COMMIT is refused at begin, by Table 03.10 in order. -/
def State.commitReason (s : State) (expect : Nat) : Option Nat :=
  if !s.epochOpen then some 1
  else if s.epochPending then some 2
  else if expect ≠ 0xFFFFFFFF ∧ expect ≠ s.rnat .epoch then some 3
  else if !s.r53 then some 4
  else if s.quotaBelowUse then some 5
  else if s.inRecovery s.affectedParts then some 7
  else if s.pinnedInWay then some 8
  else none

/-- EPOCH_COMMIT (R67): sets PENDING, checks, then waits for the boundary or starts the drain. -/
def State.epochCommit (s : State) (x : Ctx) : State :=
  let refuse (t : State) (r : Nat) : State := t.finish x.id stRefused (w32 (r + 0xFF00))
  match s.commitReason (x.w 2) with
  | some 2 => refuse (s.rput .epochResult 0 0 (stRefused + 2 * 256 + s.rnat .epoch % 65536 * 65536)) 2
  | some r => refuse (s.closeEpoch stRefused r) r
  | none =>
    let ps := s.affectedParts
    let s1 := (s.rput .epochCtrl 0 0 3).updCtx x.id fun y => { y with phase := .running, work := .waits s.now 0 0 }
    let before := ps.map fun p => (p, s.pstate p)
    let s2 := s1.withCp fun c => { c with commit := some ⟨x.id, s.now, s.nonAtomicChange, ps, before⟩ }
    if !s.nonAtomicChange then s2
    else
      let s3 := ps.foldl (fun t p => t.rput .pstate p 0 2) s2
      if s.rnat .epochHold = 0 then s3.epochRefuse 6 else s3

/-- EPOCH_HOLD_LIMIT_EXPIRY (R72). -/
def State.holdExpiry (s : State) : State :=
  match s.cp.commit with
  | some c => if c.drain ∧ s.rnat .epochHold ≤ ticks c.begun s.now then s.epochRefuse 6 else s
  | none => s

/-- Puts every shadow value in force and counts the epoch (R68). -/
def State.applyShadow (s : State) : State :=
  let t := (s.rf.shadow.foldl (fun t e => t.rset e.1 e.2) s).radd32 .epoch 0 0 1
  -- each change of TEN.PARTITION raises the tenant's seal generation (R275)
  (List.range 64).foldl (fun u k => if t.rnat .partition k = s.rnat .partition k then u else u.radd32 .sealGen k 0 1) t

/-- Completes the EPOCH_COMMIT at its boundary (R68). -/
def State.commitDone (s : State) (c : Commit) : State :=
  (s.closeEpoch stDone 0).finish c.id stDone (w32 (s.rnat .epoch % 65536 + s.usSince c.begun * 65536))

/-- Gives each isolated partition its private slots (R71, item 4): the slots of its own models, then EMPTY, ZEROING and
evicted slots of the pooled group. -/
def State.regroup (s : State) : State :=
  let clear := s.withToy fun y => { y with slots := y.slots.mapV fun _ z => { z with group := 0 } }
  let own := clear.withToy fun y =>
    { y with
      slots := (List.range 256).foldl (fun sl k => match (sl.get k).owner with
        | some (t, _) => match s.tenPart t with
          | some p => if s.isolated p then sl.upd k fun z => { z with group := p + 1 } else sl
          | none => sl
        | none => sl) y.slots }
  (List.range 16).foldl (fun st p =>
    if !st.isolated p then st
    else
      let need := st.rfld .toy 0 9 p - ((List.range 256).filter fun k => (st.toy.slots.get k).group = p + 1).length
      let (st1, _) := st.evictFor 257 need 0
      let pick := (st1.slotsIn 0 .empty ++ st1.slotsIn 0 .zeroing).take need
      st1.withToy fun y => { y with slots := pick.foldl (fun sl k => sl.upd k fun z => { z with group := p + 1 }) y.slots }) own

/-- Pages of a tenant that is bound to another partition count against it from then on (R212). -/
def State.movePages (s : State) (t to_ : Nat) : State :=
  let come := s.pagesTo t to_
  let s1 := (List.range 16).foldl (fun u p => if p = to_ then u else u.rput .memHeld p 0 (u.rnat .memHeld p - s.pagesIn t p)) s
  (s1.rput .memHeld to_ 0 (s.rnat .memHeld to_ + come)).withMem fun m =>
    { m with
      pages := m.pages.mapV fun _ g => if g.tenant = some t then { g with part := to_ } else g
      maps := m.maps.mapV fun k e => if k.1 = vf t then { e with part := to_ } else e }

/-- The bytes a partition's row cache holds (R165). -/
def State.rowCap (s : State) (p : Nat) : Nat := s.rfld .rowcache 0 16 p * 1048576

/-- Row-cache lines in order, as far as each partition's capacity holds them (R165). -/
def fitLines (cap : Nat → Nat) (ls : List RowLine) : List RowLine :=
  (ls.foldl (fun (acc : List RowLine × (Nat → Nat)) l =>
    if acc.2 l.part + l.bytes.length ≤ cap l.part then
      (l :: acc.1, fun p => if p = l.part then acc.2 p + l.bytes.length else acc.2 p)
    else acc) ([], fun _ => 0)).1.reverse

/-- The switch of a drain-and-switch epoch at a boundary (R71): scratchpads and row-cache slices of the cells that changed partition are
cleared; a row cache that shrank keeps what fits. -/
def State.epochSwitch (s : State) (c : Commit) : State :=
  let cellOf (t : State) (n : Nat) := t.cellPart n
  let wasIso := (List.range 16).filter s.isolated
  let s1 := s.applyShadow
  let s2 := c.affected.foldl (fun t p => t.rput .pstate p 0 3) s1
  let s3 := (s2.withEn fun e => { e with scratch := e.scratch.keep fun k _ => cellOf s k.1 == cellOf s1 k.1 }).withEmb fun e =>
    { e with lines := fitLines s1.rowCap (e.lines.filter fun l => cellOf s l.cell == cellOf s1 l.cell) }
  let s4 := (List.range 64).foldl (fun t k =>
    match s1.tenPart k with
    | some b => if s.tenPart k = some b then t else t.movePages k b
    | none => t) s3
  let s5 := s4.withToy fun y => { y with models := y.models.mapV fun k m => m.map fun m =>
    (match s.tenPart k.1 with
      | some p => if wasIso.contains p ∧ !s1.isolated p then { m with pinned := false } else m
      | none => m) }
  let s6 := s5.regroup
  let told := (List.range 64).filter fun k => c.affected.any fun p => s.tenPart k == some p || s1.tenPart k == some p
  let tell (t : State) (k : Nat) : State :=
    let p := ((s1.tenPart k).orElse fun _ => s.tenPart k).getD 0
    t.event (vf k) { code := 0x0301, island := 29, d0 := s1.rnat .epoch, d1 := p, d2 := s1.rfld .cells 0 16 p }
  (told.foldl tell s6).commitDone c

/-- What a period boundary does to the epoch in progress (R68, R71): an atomic epoch applies; a drained one is checked
again for reasons 5 and 8 and switches. -/
def State.epochBoundary (s : State) : State :=
  match s.cp.commit with
  | none => s
  | some c =>
    if !c.drain then s.applyShadow.commitDone c
    else if !(c.affected.all s.drained) then s
    else if s.quotaBelowUse then s.epochRefuse 5
    else if s.pinnedInWay then s.epochRefuse 8
    else s.epochSwitch c

/-- SWITCHING ends (Table 03.4): ACTIVE, or FREE if the partition owns no cells. -/
def State.endSwitching (s : State) : State :=
  (List.range 16).foldl (fun t p => if t.pstate p = 3 then t.rput .pstate p 0 (if t.rfld .cells 0 16 p = 0 then 0 else 1) else t) s

end Sys2Proof.Machine
end

