-- ==== Sys2Proof/Machine/Matrix.lean ====
section
/-! DEFINITION. Matrix commands: operand pairs, tiles, accumulation, the gate pipeline, conversion to staged outputs
(chapter 06). -/

namespace Sys2Proof.Machine

/-! ### Operand pairs (Table 06.1) -/

/-- Pass depth D and per-element depth q of an operand pair; `none` if Table 06.1 does not list it. -/
def pairOf (a w : Nat) : Option (Nat × Nat) :=
  if a = 0 ∧ w = 0 then some (512, 4)
  else if a = 1 ∧ (w = 0 ∨ w = 1) then some (256, 2)
  else if (a = 2 ∨ a = 3) ∧ (w = 2 ∨ w = 3) then some (256, 2)
  else if (a = 4 ∧ w = 4) ∨ (a = 5 ∧ w = 5) then some (128, 1)
  else none

/-- The pair accumulates in INT32. -/
def intPair (a w : Nat) : Bool := isIntFmt a && isIntFmt w

/-- Bytes of `n` elements of a format, INT4 packed two to a byte (R119). -/
def elemBytes (fmt n : Nat) : Nat := cdiv (n * fmtBits fmt) 8

/-- Row pitch: the bytes of a row rounded up to 64 (R119). -/
def pitch64 (fmt n : Nat) : Nat := cdiv (elemBytes fmt n) 64 * 64

/-- Element `i` of packed elements: byte offset and number of bytes. -/
def elemAt (fmt i : Nat) : Nat × Nat := if fmt = 0 then (i / 2, 1) else (i * (fmtBits fmt / 8), fmtBits fmt / 8)

/-- Bits of element `i` from the bytes that hold it. -/
def elemOf (fmt i : Nat) (bs : List W8) : Nat :=
  if fmt = 0 then fld (ofBytes bs) (4 * (i % 2)) 4 else ofBytes bs

/-! ### The packet (Table 06.2) -/

def Ctx.afmt (x : Ctx) : Nat := fld (x.w 2) 12 4
def Ctx.wfmt (x : Ctx) : Nat := fld (x.w 2) 16 4
def Ctx.ofmt (x : Ctx) : Nat := fld (x.w 2) 20 4
def Ctx.mM (x : Ctx) : Nat := fld (x.w 10) 0 24
def Ctx.mK (x : Ctx) : Nat := fld (x.w 11) 0 16
def Ctx.mN (x : Ctx) : Nat := fld (x.w 11) 16 16
def Ctx.tileM (x : Ctx) : Nat := fld (x.w 14) 0 16
def Ctx.tileN (x : Ctx) : Nat := fld (x.w 14) 16 16
def Ctx.gateOnly (x : Ctx) : Bool := x.op == 0x21

/-- NC and NT (R120). -/
def Ctx.tileCols (x : Ctx) : Nat := cdiv x.mN x.tileN
def Ctx.tileCount (x : Ctx) : Nat := x.tileCols * cdiv x.mM x.tileM

/-! ### The gate program (Table 06.7) -/

/-- Operation codes up to the first END. -/
def progOps (p : List W8) : List Nat := ((p.take 8).map (·.toNat)).takeWhile (· ≠ 0)
/-- An FP32 field of the program. -/
def progF (p : List W8) (o : Nat) : W32 := w32 (natAt p o 4)
/-- An address field of the program. -/
def progA (p : List W8) (o : Nat) : W64 := w64 (natAt p o 8)

/-- The factor by which the program narrows N (R128): 1, 2 or 4. -/
def narrowBy (ops : List Nat) : Nat := if ops.contains 0x0D then 4 else if ops.contains 0x0C ∨ ops.contains 0x0E then 2 else 1

/-- Columns of OUT (R119). -/
def nOut (p : List W8) (n : Nat) : Nat := n / narrowBy (progOps p)

/-- Number of occurrences. -/
def countOf (l : List Nat) (p : Nat → Bool) : Nat := (l.filter p).length

/-- The rules a gate program obeys of itself (R127, R128).  DESIGN CHOICE (log 63): a NaN bound is not below another, so it passes. -/
def progOk (p : List W8) : Bool :=
  let ops := progOps p
  let wide (c : Nat) : Bool := c == 0x0C || c == 0x0D || c == 0x0E
  let uses (c : Nat) : Bool := ops.contains c
  let after := (ops.dropWhile fun c => !wide c).drop 1
  ops.all (fun c => c ≤ 0x0E) &&
  decide (countOf ops (· == 1) ≤ 1) && decide (countOf ops (· == 2) ≤ 1) && decide (countOf ops (· == 0x0B) ≤ 1) &&
  decide (countOf ops (fun c => c == 9 || c == 10 || c == 0x0D || c == 0x0E) ≤ 1) &&
  after.all (· == 0x0B) &&
  (!uses 1 || progA p 16 ≠ 0) && (!uses 2 || progA p 24 ≠ 0) &&
  (!(uses 9 || uses 10 || uses 0x0D || uses 0x0E) || progA p 32 ≠ 0) &&
  (!(uses 0x0D || uses 0x0E) || progA p 40 ≠ 0) &&
  !(f32 (progF p 12)).lt (f32 (progF p 8))

/-- The multiple that the program's width-changing operation asks of N and TILE_N (R128). -/
def progMul (p : List W8) : Nat :=
  let ops := progOps p
  if ops.contains 0x0D then 512 else if ops.contains 0x0C || ops.contains 0x0E then 256 else 1

/-- Where a gate program fails, as DETAIL of ST_BAD_PACKET: its reserved bytes are reserved fields (reason 1, R11), its own rules and
widths operand ranges (reason 7). -/
def progBad (p : List W8) (n tn : Nat) : Option W32 :=
  if !(p.drop 48).all (· == 0) then some (badDetail 12 0 1)
  else if !progOk p then some (badDetail 12 0 7)
  else if n % progMul p ≠ 0 then some (badDetail 11 16 7)
  else if tn % progMul p ≠ 0 then some (badDetail 14 16 7)
  else none

/-- The extents a program's operations use, named by word 12 (R127). -/
def progExts (p : List W8) (m n : Nat) : List Ext :=
  let ops := progOps p
  let h := nOut p n
  (if ops.contains 1 then [⟨12, progA p 16, 4 * n⟩] else []) ++
  (if ops.contains 2 then [⟨12, progA p 24, 4 * n⟩] else []) ++
  (if ops.contains 9 ∨ ops.contains 10 then [⟨12, progA p 32, m * pitch64 6 n⟩] else []) ++
  (if ops.contains 0x0D ∨ ops.contains 0x0E then [⟨12, progA p 32, m * pitch64 6 h⟩, ⟨12, progA p 40, m * pitch64 6 h⟩] else [])

/-! ### Accumulation (R115) -/

/-- Exact sum of a list of products. -/
def sumFv (l : List Fv) : Fv := l.foldl Fv.add (.fin false 0 0)

/-- A list cut into pieces of `n`. -/
def chunks {α : Type} (n : Nat) : (fuel : Nat) → List α → List (List α)
  | 0, _ => []
  | _, [] => []
  | k + 1, l => l.take n :: chunks n k (l.drop n)

/-- FP32 accumulation of the products of one output element: passes of D rounded and added, or, output-stationary, steps of
q added with one rounding. -/
def accumF (stat D q : Nat) (ps : List Fv) : W32 :=
  if stat = 1 then (chunks q (ps.length + 1) ps).foldl (fun a l => toF32 ((f32 a).add (sumFv l))) 0
  else (chunks D (ps.length + 1) ps).foldl (fun a l => addF a (toF32 (sumFv l))) 0

/-- The integer of a finite integer product. -/
def intOf : Fv → Int
  | .fin s m e => (if s then -1 else 1) * (m * 2 ^ e.toNat : Nat)
  | _ => 0

/-- Exact INT32 accumulation. -/
def accumI (ps : List Fv) : W32 := BitVec.ofInt 32 (ps.foldl (fun a p => a + intOf p) 0)

/-! ### The gate pipeline (R126 to R129) -/

/-- What element-wise operations read besides the element: one vector or tensor element each. -/
structure GateIn where
  bias : W32
  scale : W32
  elt : W32
deriving DecidableEq, Repr

/-- One element-wise operation.  DESIGN CHOICE (log 63): CLAMP keeps a zero of x against a bound that is the zero of the other sign. -/
def gateElt (p : List W8) (g : GateIn) (op : Nat) (v : W32) : W32 :=
  match op with
  | 0x01 => addF v g.bias
  | 0x02 => mulF v g.scale
  | 0x03 => reluF v
  | 0x04 => if (f32 v).isNan then 0x7FC00000 else minF (maxF v (progF p 8)) (progF p 12)
  | 0x05 => sigmoidF v
  | 0x06 => tanhF v
  | 0x07 => siluF v
  | 0x08 => geluF v
  | 0x09 => mulF v g.elt
  | 0x0A => addF v g.elt
  | _ => v

/-- The state of one row as it passes the program: its elements, the largest magnitude MAXABS recorded, and OUT2. -/
structure GateRow where
  vals : List W32
  probe : W32
  out2 : List W32
deriving DecidableEq, Repr

/-- A width-changing operation over a row (R128, R129); `elt h` is the state element of hidden unit `h` of the tile. -/
def gateWide (op : Nat) (elt : Nat → W32) (r : GateRow) : GateRow :=
  let v (i : Nat) : W32 := r.vals.getD i 0
  let n := r.vals.length
  if op = 0x0C then
    { r with vals := (List.range (n / 2)).map fun i => mulF (v (i / 128 * 256 + i % 128)) (sigmoidF (v (i / 128 * 256 + 128 + i % 128))) }
  else if op = 0x0D then
    let c' (i : Nat) : W32 :=
      let b := i / 128 * 512 + i % 128
      addF (mulF (sigmoidF (v (b + 128))) (elt i)) (mulF (sigmoidF (v b)) (tanhF (v (b + 256))))
    let out (i : Nat) : W32 := mulF (sigmoidF (v (i / 128 * 512 + i % 128 + 384))) (tanhF (c' i))
    { r with vals := (List.range (n / 4)).map out, out2 := (List.range (n / 4)).map c' }
  else
    let s' (i : Nat) : W32 :=
      let b := i / 128 * 256 + i % 128
      addF (elt i) (mulF (sigmoidF (v b)) (subF (v (b + 128)) (elt i)))
    let l := (List.range (n / 2)).map s'
    { r with vals := l, out2 := l }

/-- Results that the gate pipeline got wrong at one step of a row: each replaces its element, and is seen by the residue check when the residue
modulo 3 of its word is not that of the right word (R132; DESIGN CHOICE, log 64).  Answers the elements and whether a check failed. -/
def gateWrong (errs : List (Nat × Nat × Nat × W32)) (row step : Nat) (vals : List W32) : List W32 × Bool :=
  errs.foldl (fun a e =>
    if e.1 = row ∧ e.2.1 = step ∧ e.2.2.1 < a.1.length then
      (a.1.set e.2.2.1 e.2.2.2, a.2 || decide (e.2.2.2.toNat % 3 ≠ (a.1.getD e.2.2.1 0).toNat % 3))
    else a) (vals, false)

/-- One operation of the program over a row: `gin j` are the inputs of tile column `j`, `elt h` those of hidden unit `h`. -/
def gateOp (p : List W8) (gin : Nat → GateIn) (elt : Nat → W32) (r : GateRow) (op : Nat) : GateRow :=
  if op = 0x0B then { r with probe := r.vals.foldl amaxF r.probe }
  else if op = 0x0C ∨ op = 0x0D ∨ op = 0x0E then gateWide op elt r
  else { r with vals := (r.vals.zipIdx).map fun e => gateElt p (gin e.2) op e.1 }

/-- Runs the program over row `row` of a tile with what went wrong in it. -/
def gateRun (p : List W8) (errs : List (Nat × Nat × Nat × W32)) (row : Nat) (gin : Nat → GateIn) (elt : Nat → W32) (vals : List W32) :
    GateRow × Bool :=
  let first := gateWrong errs row 0 vals
  (progOps p).zipIdx.foldl (fun a e =>
    let r := gateOp p gin elt a.1 e.1
    let w := gateWrong errs row (e.2 + 1) r.vals
    ({ r with vals := w.1 }, a.2 || w.2)) (⟨first.1, 0, []⟩, first.2)

/-! ### Tiles -/

/-- The staged bytes of a row of converted elements from column `c0` at a row address (R119): whole bytes, and single
nibbles at odd INT4 edges. -/
def stageRow (fmt : Nat) (row : W64) (c0 : Nat) (bits : List Nat) : List Staged :=
  if fmt = 0 then
    let at_ (c : Nat) : Nat := bits.getD (c - c0) 0
    (List.range (if bits = [] then 0 else (c0 + bits.length - 1) / 2 - c0 / 2 + 1)).map fun k =>
      let b := c0 / 2 + k
      let lo := decide (c0 ≤ 2 * b) && decide (2 * b < c0 + bits.length)
      let hi := decide (c0 ≤ 2 * b + 1) && decide (2 * b + 1 < c0 + bits.length)
      let v := (if lo then at_ (2 * b) else 0) + (if hi then at_ (2 * b + 1) * 16 else 0)
      ⟨addrAdd row b, [BitVec.ofNat 8 v], if lo && hi then 0 else if lo then 1 else 2⟩
  else [⟨addrAdd row (c0 * (fmtBits fmt / 8)), (bits.map (toBytes (fmtBits fmt / 8))).flatten, 0⟩]

/-- An Except fold that stops at the first failure. -/
def mapE {α β : Type} (f : α → Except Fail β) : List α → Except Fail (List β)
  | [] => .ok []
  | a :: l =>
    match f a with
    | .error e => .error e
    | .ok b => match mapE f l with
      | .error e => .error e
      | .ok bs => .ok (b :: bs)

/-- Where a tile lies (R120): its first row and column, its rows and its columns. -/
structure TilePos where
  i0 : Nat
  n0 : Nat
  rows : Nat
  cols : Nat
deriving DecidableEq, Repr

/-- The place of tile ordinal `ord`; the second run of a widened command counts on (R145). -/
def tilePos (x : Ctx) (ord : Nat) : TilePos :=
  let o := ord % x.tileCount
  let i0 := o / x.tileCols * x.tileM
  let n0 := o % x.tileCols * x.tileN
  ⟨i0, n0, min x.tileM (x.mM - i0), min x.tileN (x.mN - n0)⟩

/-! ### Passes and streams (R122, R123, R146, R231) -/

/-- STAT of a MATMUL. -/
def Ctx.stat (x : Ctx) : Nat := fld (x.w 0) 16 2

/-- Pass depth and per-element depth in effect: those of the pair, or, where format follow has no pair, of BF16 (R146). -/
def depths (x : Ctx) (af : Nat) : Nat × Nat := ((pairOf af x.wfmt).orElse fun _ => pairOf 4 4).getD (128, 1)

/-- K blocks, row blocks, and stored column blocks that a tile touches.  DESIGN CHOICE (log 65): a pass takes a stored column block of W, also
where TILE_N is no multiple of 128. -/
structure Blocks where
  kb : Nat
  mb : Nat
  nb : Nat
deriving DecidableEq, Repr

def blocksOf (x : Ctx) (af ord : Nat) : Blocks :=
  let p := tilePos x ord
  ⟨cdiv x.mK (depths x af).1, cdiv p.rows 128, (p.n0 + p.cols - 1) / 128 - p.n0 / 128 + 1⟩

/-- Passes of a tile (Table 06.5): over K and columns, rows and columns, or K and rows. -/
def passCount (x : Ctx) (af ord : Nat) : Nat :=
  let b := blocksOf x af ord
  if x.gateOnly then 1 else if x.stat = 0 then b.kb * b.nb else if x.stat = 1 then b.mb * b.nb else b.kb * b.mb

/-- What the A stream of a tile brings: row slabs of a K block, whole rows, or blocks of 128 rows; for GATE_ONLY the tile's lines of X. -/
def aGroups (x : Ctx) (af ord : Nat) : List Group :=
  let p := tilePos x ord
  let b := blocksOf x af ord
  let pt := pitch64 af (if x.gateOnly then x.mN else x.mK)
  let at_ (o : Nat) : Src := .op (addrAdd (x.a 4) (p.i0 * pt + o))
  let slab (k : Nat) : Nat := min 256 (pt - 256 * k)
  let part (m : Nat) : Nat := min 128 (p.rows - 128 * m)
  if x.gateOnly then
    let b0 := p.n0 * fmtBits af / 512 * 64
    [⟨at_ b0, cdiv ((p.n0 + p.cols) * fmtBits af) 512 * 64 - b0, pt, p.rows, 0, 0⟩]
  else if x.stat = 0 then (List.range b.kb).map fun k => ⟨at_ (256 * k), slab k, pt, p.rows, k * b.nb, k * b.nb + b.nb - 1⟩
  else if x.stat = 1 then (List.range b.mb).map fun m => ⟨at_ (128 * m * pt), pt, pt, part m, m * b.nb, m * b.nb + b.nb - 1⟩
  else (List.range (b.kb * b.mb)).map fun q => ⟨at_ (128 * (q % b.mb) * pt + 256 * (q / b.mb)), slab (q / b.mb), pt, part (q % b.mb), q, q⟩

/-- Where W's bytes lie: at an offset in the model's image, or in memory. -/
def wSrc (x : Ctx) (o : Nat) : Src := if bit (x.w 2) 10 then .op (addrAdd (x.a 6) o) else .model (x.w 3 + o)

/-- What the W stream of a MATMUL tile brings: blocks of D × 128 elements by K block and column block (R119), the whole K of a column block,
or all column blocks of a K block. -/
def wGroups (x : Ctx) (af ord : Nat) : List Group :=
  let p := tilePos x ord
  let b := blocksOf x af ord
  let own := ((pairOf x.afmt x.wfmt).getD (128, 1)).1
  let d := (depths x af).1
  let kb0 := cdiv x.mK own
  let size (k : Nat) : Nat := k * 16 * fmtBits x.wfmt
  let off (k n : Nat) : Nat := ((p.n0 / 128 + n) * kb0 + k * d / own) * size own + size (k * d % own)
  if x.gateOnly then []
  else if x.stat = 0 then (List.range (b.kb * b.nb)).map fun q => ⟨wSrc x (off (q / b.nb) (q % b.nb)), size d, size d, 1, q, q⟩
  else if x.stat = 1 then (List.range (b.mb * b.nb)).map fun q => ⟨wSrc x (off 0 (q % b.nb)), kb0 * size own, kb0 * size own, 1, q, q⟩
  else (List.range b.kb).map fun k => ⟨wSrc x (off k 0), size d, kb0 * size own, b.nb, k * b.mb, k * b.mb + b.mb - 1⟩

/-- What the E stream brings, for the drain after the last pass: BIAS, SCALE, and the rows of ELT (R127). -/
def eGroups (x : Ctx) (prog : List W8) (ord last : Nat) : List Group :=
  let p := tilePos x ord
  let ops := progOps prog
  let nb := narrowBy ops
  let vec (use : Bool) (o : Nat) : List Group := if use then [⟨.op (addrAdd (progA prog o) (4 * p.n0)), 4 * p.cols, 0, 1, last, last⟩] else []
  let elt (use : Bool) (n c0 c : Nat) : List Group :=
    if use then [⟨.op (addrAdd (progA prog 32) (p.i0 * pitch64 6 n + 4 * c0)), 4 * c, pitch64 6 n, p.rows, last, last⟩] else []
  vec (ops.contains 1) 16 ++ vec (ops.contains 2) 24 ++ elt (ops.contains 9 || ops.contains 10) x.mN p.n0 p.cols ++
    elt (ops.contains 0x0D || ops.contains 0x0E) (x.mN / nb) (p.n0 / nb) (p.cols / nb)

/-! ### What the array has read -/

/-- The first `n` pieces of `len` bytes. -/
def cutPieces (len : Nat) : (n : Nat) → List W8 → List (List W8)
  | 0, _ => []
  | n + 1, b => b.take len :: cutPieces len n (b.drop len)

/-- The pieces of each group of a stream, from the bytes read. -/
def cutGroups : List Group → List W8 → List (List (List W8))
  | [], _ => []
  | g :: l, b => cutPieces g.len g.n b :: cutGroups l (b.drop (g.len * g.n))

/-- Piece `i` of group `g`. -/
def pieceAt (c : List (List (List W8))) (g i : Nat) : List W8 := (c.getD g []).getD i []

/-- Elements packed in bytes, as bits (R119). -/
def elemsOf (fmt : Nat) (bs : List W8) : List Nat :=
  if fmt = 0 then (bs.map fun b => [b.toNat % 16, b.toNat / 16]).flatten
  else
    let w := fmtBits fmt / 8
    (cutPieces w (bs.length / w) bs).map ofBytes

/-- Element `i` of packed bytes, as a value. -/
def elemVal (fmt : Nat) (bs : List W8) (i : Nat) : Fv :=
  let (o, n) := elemAt fmt i
  decodeFmt fmt (elemOf fmt i ((bs.drop o).take n))

/-- The rows of A that a tile has read. -/
def aRows (x : Ctx) (af ord : Nat) (c : List (List (List W8))) : List (List Fv) :=
  let p := tilePos x ord
  let b := blocksOf x af ord
  let vals (bs : List W8) : List Fv := (elemsOf af bs).map (decodeFmt af)
  (List.range p.rows).map fun i =>
    if x.gateOnly then ((vals (pieceAt c 0 i)).drop (p.n0 * fmtBits af % 512 / fmtBits af)).take p.cols
    else (vals (if x.stat = 0 then ((List.range b.kb).map fun k => pieceAt c k i).flatten
      else if x.stat = 1 then pieceAt c (i / 128) (i % 128)
      else ((List.range b.kb).map fun k => pieceAt c (k * b.mb + i / 128) (i % 128)).flatten)).take x.mK

/-- The columns of W that a tile has read for its row block `m`. -/
def wCols (x : Ctx) (af ord : Nat) (c : List (List (List W8))) (m : Nat) : List (List Fv) :=
  let p := tilePos x ord
  let b := blocksOf x af ord
  let d := (depths x af).1
  (List.range p.cols).map fun n =>
    let j := p.n0 % 128 + n
    (List.range x.mK).map fun k =>
      if x.stat = 0 then elemVal x.wfmt (pieceAt c (k / d * b.nb + j / 128) 0) (k % d * 128 + j % 128)
      else if x.stat = 1 then elemVal x.wfmt (pieceAt c (m * b.nb + j / 128) 0) (k * 128 + j % 128)
      else elemVal x.wfmt (pieceAt c (k / d) (j / 128)) (k % d * 128 + j % 128)

/-- Words of FP32 in bytes. -/
def wordsF (bs : List W8) : List W32 := (elemsOf 6 bs).map w32

/-- The inputs that each row of a tile takes from the E stream. -/
def eRows (x : Ctx) (prog : List W8) (ord : Nat) (c : List (List (List W8))) : List (List (W32 × W32 × W32) × List W32) :=
  let p := tilePos x ord
  let ops := progOps prog
  let b := ops.contains 1
  let sc := ops.contains 2
  let bias := if b then wordsF (pieceAt c 0 0) else []
  let scale := if sc then wordsF (pieceAt c (b01 b) 0) else []
  let elt (i : Nat) : List W32 := wordsF (pieceAt c (b01 b + b01 sc) i)
  let wide := ops.contains 0x0D || ops.contains 0x0E
  (List.range p.rows).map fun i =>
    ((List.range p.cols).map fun j => (bias.getD j 0, scale.getD j 0, if wide then 0 else (elt i).getD j 0), if wide then elt i else [])

/-! ### The array and its checksum lane (R115, R130, R131) -/

/-- The accumulator of a row and a column: the FP32 value of R126 item 1 and, for integer accumulation, the INT32 word. -/
def accumOf (x : Ctx) (af : Nat) (row col : List Fv) : W32 × W32 :=
  let ps := List.zipWith Fv.mul row col
  if intPair af x.wfmt then
    let v := accumI ps
    (toF32 (ofInt v.toInt), v)
  else (accumF x.stat (depths x af).1 (depths x af).2 ps, 0)

/-- Sums, element by element, of lists of `n`. -/
def sumEach (n : Nat) (ls : List (List Fv)) : List Fv := (List.range n).map fun k => sumFv (ls.map fun l => l.getD k (.fin false 0 0))

/-- The lane's sums of the columns and rows of a tile, over its row blocks, each with the columns of W it read (R130, R131). -/
def laneSums (k cols : Nat) (bs : List (List (List Fv) × List (List Fv))) : LaneSums :=
  let dot (a b : List Fv) : Fv := sumFv (List.zipWith Fv.mul a b)
  let ab (ls : List (List Fv)) : List (List Fv) := ls.map fun l => l.map Fv.abs
  let col (f : List (List Fv) → List (List Fv)) : List Fv := (List.range cols).map fun j =>
    sumFv (bs.map fun b => dot (sumEach k (f b.1)) ((f b.2).getD j []))
  let row (f : List (List Fv) → List (List Fv)) : List Fv := (bs.map fun b => (f b.1).map fun r => dot r (sumEach k (f b.2))).flatten
  { r := col id, u := col ab, t := row id, u' := row ab }

/-- What a tile's array has drained when its passes have run, and its lane's sums. -/
def drainTile (x : Ctx) (cap : MatCap) (ord : Nat) (a w e : List (List (List W8))) : List TileRow × LaneSums :=
  let p := tilePos x ord
  let rows := aRows x cap.afmt ord a
  let ins := eRows x cap.prog ord e
  let put (i : Nat) (acc : List (W32 × W32)) : TileRow := ⟨acc, (ins.getD i ([], [])).1, (ins.getD i ([], [])).2⟩
  if x.gateOnly then (rows.zipIdx.map fun r => put r.2 (r.1.map fun v => (toF32 v, 0)), {})
  else
    let one := decide (x.stat ≠ 1)
    let mb := if one then 1 else cdiv p.rows 128
    let bs := (List.range mb).map fun m => (if one then rows else (rows.drop (128 * m)).take 128, wCols x cap.afmt ord w m)
    let accs := (bs.map fun b => b.1.map fun r => b.2.map (accumOf x cap.afmt r)).flatten
    (accs.zipIdx.map fun r => put r.2 r.1, laneSums x.mK p.cols bs)

/-- A line of the checksum does not match (R130, R131): `s` is what the drain formed, `r` and `u` what the lane did; a line with a non-finite
accumulator is left out. -/
def lineBad (x : Ctx) (af : Nat) (ws : List (W32 × W32)) (r u : Fv) (lane : Bool) : Bool :=
  if intPair af x.wfmt then
    lane || decide (((ws.foldl (fun n w => n + w.2.toInt) 0) - intOf r) % 2 ^ 32 ≠ 0)
  else if ws.any fun w => !(f32 w.1).isFin then false
  else
    let s := sumFv (ws.map fun w => f32 w.1)
    let n := cdiv x.mK (if x.stat = 1 then (depths x af).2 else (depths x af).1)
    lane || (((Fv.fin false (n + 2) (-22)).mul u).add (.fin false 1 (-126))).lt (s.add r.neg).abs

/-- Accumulators that hold other words replace the right ones. -/
def putAcc (x : Ctx) (af : Nat) (errs : List (Nat × Nat × W32)) (rows : List TileRow) : List TileRow :=
  errs.foldl (fun l e => l.modify e.1 fun r =>
    { r with acc := r.acc.modify e.2.1 fun _ => if intPair af x.wfmt then (toF32 (ofInt e.2.2.toInt), e.2.2) else (e.2.2, 0) }) rows

/-- A column, and a row, of a tile that does not match. -/
def colsBad (x : Ctx) (af : Nat) (lane : List (Bool × Nat)) (rows : List TileRow) (sums : LaneSums) : Bool :=
  sums.r.zipIdx.any fun c =>
    lineBad x af (rows.map fun r => r.acc.getD c.2 (0, 0)) c.1 (sums.u.getD c.2 (.fin false 0 0)) (lane.contains (true, c.2))
def rowsBad (x : Ctx) (af : Nat) (lane : List (Bool × Nat)) (rows : List TileRow) (sums : LaneSums) : Bool :=
  sums.t.zipIdx.any fun c =>
    lineBad x af (rows.getD c.2 ⟨[], [], []⟩).acc c.1 (sums.u'.getD c.2 (.fin false 0 0)) (lane.contains (false, c.2))

/-! ### What a tile puts out (R126, R132, R137, R143) -/

/-- Converts a row's elements (R126 item 3, R137): bits and counts. -/
def convRow (fmt : Nat) (d : W32) (vals ints : List W32) : List Conv :=
  if fmt = 7 then ints.map fun v => ⟨v.toNat, false, false⟩ else vals.map (convertTo fmt d)

/-- The output format of the pass in progress: the wide format of R145 in the second run. -/
def passFmt (ofmt : Nat) (wide : Bool) : Nat := if wide then (if ofmt = 0 then 1 else 4) else ofmt

/-- A row of a tile through the gate pipeline: what it stages, its counts, and whether a residue check failed. -/
def rowOut (x : Ctx) (cap : MatCap) (wide : Bool) (ord i : Nat) (row : TileRow) (errs : List (Nat × Nat × Nat × W32)) :
    List Staged × TileStats × Bool :=
  let p := tilePos x ord
  let f := passFmt x.ofmt wide
  let nb := narrowBy (progOps cap.prog)
  let gin (j : Nat) : GateIn :=
    let v := row.gin.getD j (0, 0, 0)
    ⟨v.1, v.2.1, v.2.2⟩
  let (g, bad) := gateRun cap.prog errs i gin (fun h => row.elt.getD h 0) (row.acc.map (·.1))
  let cs := convRow f cap.divisor g.vals (row.acc.map (·.2))
  let w := gateWrong errs i ((progOps cap.prog).length + 1) (cs.map fun c => w32 c.bits)
  let out := stageRow f (addrAdd (x.a 8) ((p.i0 + i) * pitch64 f (x.mN / nb))) (p.n0 / nb) (w.1.map (·.toNat))
  let out2 := if g.out2 = [] then [] else
    stageRow 6 (addrAdd (progA cap.prog 40) ((p.i0 + i) * pitch64 6 (x.mN / nb))) (p.n0 / nb) (g.out2.map (·.toNat))
  (out ++ out2,
    { amax := if f ≠ 6 ∧ f ≠ 7 then g.vals.foldl amaxF 0 else 0, probe := g.probe
      sat := (cs.filter (·.sat)).length, nans := (cs.filter (·.nan)).length, nonfinite := false },
    bad || w.2)

/-- Counts of two rows. -/
def TileStats.join (a b : TileStats) : TileStats :=
  { amax := amaxF a.amax b.amax, probe := amaxF a.probe b.probe, sat := a.sat + b.sat, nans := a.nans + b.nans
    nonfinite := a.nonfinite || b.nonfinite }

/-- A tile through the gate pipeline. -/
def tileOut (x : Ctx) (cap : MatCap) (wide : Bool) (ord : Nat) (rows : List TileRow) (errs : List (Nat × Nat × Nat × W32)) :
    List Staged × TileStats × Bool :=
  let rs := rows.zipIdx.map fun r => rowOut x cap wide ord r.2 r.1 errs
  ((rs.map (·.1)).flatten, rs.foldl (fun t r => t.join r.2.1) {}, rs.any (·.2.2))

/-- The tile has an accumulator that is infinite or NaN (R131). -/
def tileNonfinite (x : Ctx) (cap : MatCap) (rows : List TileRow) : Bool :=
  !x.gateOnly && !intPair cap.afmt x.wfmt && rows.any fun r => r.acc.any fun w => !(f32 w.1).isFin

/-- Stack bytes of the destinations of a tile: OUT and OUT2, row by row (R79). -/
def tileOutBytes (x : Ctx) (cap : MatCap) (wide : Bool) (ord : Nat) : Nat :=
  let p := tilePos x ord
  let f := passFmt x.ofmt wide
  let ops := progOps cap.prog
  let nb := narrowBy ops
  let two := ops.contains 0x0D || ops.contains 0x0E
  (List.range p.rows).foldl (fun n i =>
    n + stackBytes (addrAdd (x.a 8) ((p.i0 + i) * pitch64 f (x.mN / nb) + p.n0 / nb * fmtBits f / 8)) (elemBytes f (p.cols / nb)) +
    (if two then stackBytes (addrAdd (progA cap.prog 40) ((p.i0 + i) * pitch64 6 (x.mN / nb) + p.n0 / nb * 4)) (4 * (p.cols / nb)) else 0)) 0

/-- The staging area read out for commit (R132): bytes that read out wrong replace the right ones; the 16-bit sum of a 64-byte line, the sum of
its little-endian 16-bit words modulo 2¹⁶ (DESIGN CHOICE, log 64), shows whether the line has changed.  Answers the bytes and whether a line sum
failed. -/
def stageWrong (errs : List (Nat × W8)) (bs : List W8) : List W8 × Bool :=
  let out := errs.foldl (fun l e => if e.1 < l.length then l.set e.1 e.2 else l) bs
  let lineSum (l : List W8) : Nat := ((List.range 32).foldl (fun n i => n + natAt l (2 * i) 2) 0) % 65536
  (out, (List.range (cdiv bs.length 64)).any fun k => lineSum ((bs.drop (64 * k)).take 64) != lineSum ((out.drop (64 * k)).take 64))

/-- Staged pieces with the bytes of the staging area put back. -/
def restage : List Staged → List W8 → List Staged
  | [], _ => []
  | g :: l, bs => { g with bytes := bs.take g.bytes.length } :: restage l (bs.drop g.bytes.length)

end Sys2Proof.Machine
end

