-- ==== Sys2Proof/Machine/Quant.lean ====
section
/-! DEFINITION. Quantisation: LAYER_SET, LAYER_READ, captures, statistics, misfits (R140 to R146, R149). -/

namespace Sys2Proof.Machine

/-- LAYER_SET (R140): the image is read now; a valid one waits for the period boundary. -/
def State.layerSet (s : State) (x : Ctx) (h : HostData) : State :=
  let layer := fld (x.w 2) 0 10
  s.gate x (stackBytes (x.a 4) 16) fun t =>
    let t := t.meetOp x.fn (x.a 4) 16
    match t.opRead x.fn h (x.a 4) 16 with
    | .error e => t.failCmd x 4 0 e
    | .ok img =>
      match imageBad layer img with
      | some (b, r) => t.finish x.id stBadPacket (badDetail 4 b r)
      | none =>
        let t1 : State := { t with qn := { t.qn with pend := t.qn.pend ++ [PendLayer.mk x.id x.ten layer img] } }
        t1.updCtx x.id fun y => { y with phase := .running, work := .waits s.now 0 0 }

/-- One pending LAYER_SET at its boundary (R140). -/
def State.applyLayer (s : State) (p : PendLayer) : State :=
  let s1 := s.updLayer p.tenant p.layer fun r => r.apply p.image
  s1.finish p.id stDone (s1.layerRec p.tenant p.layer).gen

/-- LAYER_SET_APPLY at a period boundary, in the order the commands began. -/
def State.applyLayers (s : State) : State :=
  s.qn.pend.foldl State.applyLayer { s with qn := { s.qn with pend := [] } }

/-! ### Captures (R142, R149) -/

/-- A layer is named as IN_LAYER by a record of the tenant with IN_FOLLOW = 1 (R142; assumption log 9). -/
def State.namedAsIn (s : State) (t layer : Nat) : Bool :=
  s.qn.recs.ents.any fun e => e.1.1 == t && e.2.inFollow && e.2.inLayer == layer

/-- The slot a step holds for a layer. -/
def State.slotOf (s : State) (sid layer : Nat) : Option StepSlot := (s.qn.slots.get sid).find? fun k => k.layer = layer

/-- The state with a step's slot for a layer changed. -/
def State.updSlot (s : State) (sid layer : Nat) (f : StepSlot → StepSlot) : State :=
  { s with qn := { s.qn with slots := s.qn.slots.upd sid fun l => l.map fun k => if k.layer = layer then f k else k } }

/-- A context belongs to an explicit step. -/
def State.inExplicit (s : State) (x : Ctx) : Bool :=
  match s.step? x.sid with
  | some st => st.explicit
  | none => false

/-- The divisor of a captured record (R149). -/
def State.divisorOf (s : State) (x : Ctx) (r : LayerRec) : W32 :=
  if r.inFollow then
    let p := match (if s.inExplicit x then s.slotOf x.sid r.inLayer else none) with
      | some k => k.rec_
      | none => s.layerRec x.ten r.inLayer
    if p.scale = p.scale0 then r.scale else divF (mulF r.scale p.scale0) p.scale
  else r.scale

/-- Captures the record of a layer for a command that converts to `ofmt` (R142, R149): the state with the slot filled, the
record and the divisor, or the status that ends the command. -/
def State.captureLayer (s : State) (x : Ctx) (layer ofmt : Nat) : Except (Nat × W32) (State × LayerRec × W32) :=
  let ex := s.inExplicit x
  let done (t : State) (r : LayerRec) : Except (Nat × W32) (State × LayerRec × W32) :=
    let d := t.divisorOf x r
    if posNormal d then .ok (t, r, d) else .error (stBadPacket, badDetail 15 0 7)
  match (if ex then s.slotOf x.sid layer else none) with
  | some k => done (s.updSlot x.sid layer fun k => { k with qmax := minF k.qmax (qmaxF ofmt) }) k.rec_
  | none =>
    let r := s.layerRec x.ten layer
    if ex && (r.mode == 1 || r.mode == 2 || r.inFollow || s.namedAsIn x.ten layer) then
      if 8 ≤ (s.qn.slots.get x.sid).length then .error (stNoResource, 0x701)
      else
        done { s with qn := { s.qn with slots := s.qn.slots.upd x.sid (· ++ [StepSlot.mk layer r none (qmaxF ofmt) none]) } } r
    else done s r

/-- A capture with nothing counted yet. -/
def MatCap.fresh (afmt : Nat) (follow : Bool) (layer : Option Nat) (r : LayerRec) (d : W32) (prog : List W8) : MatCap :=
  { afmt := afmt, follow := follow, layer := layer, rec_ := r, divisor := d, prog := prog, amax := 0, probe := 0, sat := 0
    nans := 0, sat2 := 0, retried := 0, committedAny := false }

/-- What a command captured. -/
def State.cap? (s : State) (id : CtxId) : Option MatCap := s.qn.caps.get id

/-- The state with a command's capture changed. -/
def State.updCap (s : State) (id : CtxId) (f : MatCap → MatCap) : State :=
  { s with qn := { s.qn with caps := s.qn.caps.upd id (Option.map f) } }

/-- The state with a command's capture set. -/
def State.setCap (s : State) (id : CtxId) (c : MatCap) : State :=
  { s with qn := { s.qn with caps := s.qn.caps.set id (some c) } }

/-- The wide format that format follow gives the A operand of a matrix command (R146). -/
def State.followOf (s : State) (x : Ctx) : Option Nat :=
  if s.inExplicit x then
    ((s.qn.slots.get x.sid).findSome? fun k => match k.wide with
      | some (a, narrow, wide) => if a = x.a 4 ∧ narrow = x.afmt then some wide else none
      | none => none)
  else none

/-- LAYER_READ is dispatched (R141): it takes the record as it stands, and with SUBOP 1 zeroes PROBE_AMAX and SAT_TOTAL. -/
def State.layerTake (s : State) (x : Ctx) : State :=
  let layer := fld (x.w 2) 0 10
  let t := s.setCap x.id (MatCap.fresh 0 false none (s.layerRec x.ten layer) oneF [])
  if x.sub = 1 then t.updLayer x.ten layer fun r => { r with probeAmax := 0, satTotal := 0 } else t

/-- LAYER_READ (R141): the record it took at its dispatch is written to the destination. -/
def State.layerRead (s : State) (x : Ctx) : State :=
  let rec_ := match s.cap? x.id with
    | some c => c.rec_
    | none => s.layerRec x.ten (fld (x.w 2) 0 10)
  s.gate x (stackBytes (x.a 4) 64) fun t =>
    match t.opWrite x.fn (x.a 4) rec_.bytes with
    | (t1, some e) => t1.failCmd x 4 0 e
    | (t1, none) => t1.finish x.id stDone 0

/-- A layer number is ignored for FP32 and INT32 output (R117). -/
def ignoresLayer (ofmt : Nat) : Bool := ofmt == 6 || ofmt == 7

/-! ### Statistics and misfits (R143, R144) -/

/-- Counts of one committed piece of converted output: AMAX, SAT, NANS and the MAXABS probe, and the slot's contribution
(R143, R147).  In the second run of a widened command its saturated elements count for R145, and MAXABS still records. -/
def State.noteConv (s : State) (x : Ctx) (wide : Bool) (st : TileStats) : State :=
  match s.cap? x.id with
  | none => s
  | some c =>
    match c.layer with
    | none => s
    | some l =>
      if wide then (s.updCap x.id fun c => { c with sat2 := c.sat2 + st.sat }).updLayer x.ten l fun r =>
        { r with probeAmax := amaxF r.probeAmax st.probe }
      else
        let s1 := s.updCap x.id fun c =>
          { c with
            amax := amaxF c.amax st.amax
            probe := amaxF c.probe st.probe
            sat := c.sat + st.sat
            nans := c.nans + st.nans
            committedAny := true }
        let s2 := s1.updLayer x.ten l fun r => { r with probeAmax := amaxF r.probeAmax st.probe }
        s2.updSlot x.sid l fun k => { k with contrib := some (amaxF (k.contrib.getD 0) st.amax) }

/-- A count of saturated elements is a misfit (R144). -/
def misfits (r : LayerRec) (sat_ e : Nat) : Bool := decide (r.satLimit * e < sat_ * 65536)

/-- Reports a misfit (R144): outcome 0 reported, 1 widened, 2 Widen not applicable. -/
def State.misfit (s : State) (x : Ctx) (layer : Nat) (r : LayerRec) (ofmt outcome sat_ e island : Nat) : State :=
  let s1 := s.radd32 .quantMisfit x.ten 0 1
  if r.evt then
    let e' : EvRec :=
      { code := 0x0701, island := island, queue := x.id.q, stepId := s.stepIdOf x.sid
        d0 := layer + r.mode * 1024 + ofmt * 4096 + outcome * 65536, d1 := sat_ % 2 ^ 32, d2 := sat (2 ^ 32 - 1) e }
    s1.eventOf x.id x.fn e'
  else s1

/-- Widen applies to a matrix command (R145). -/
def widenOk (x : Ctx) (c : MatCap) : Bool :=
  c.rec_.mode == 1 && decide (x.ofmt < 4) && !(progOps c.prog).contains 0x0D && !(progOps c.prog).contains 0x0E

/-- The wide format of an output format (R145). -/
def wideOf (ofmt : Nat) : Nat := if ofmt = 0 then 1 else 4

end Sys2Proof.Machine
end

