-- ==== Sys2Proof/Machine/Tables.lean ====
section
/-! DEFINITION. Embedding tables: descriptors, blocks, the row cache, far operations, and row lookups and commits
(R151 to R157, R165 to R172, R178). -/

namespace Sys2Proof.Machine

/-! ### The descriptor (Table 08.1) and the geometry of a shard (R152, R153, R156) -/

/-- A descriptor from its 64 bytes; the members are read apart. -/
def Desc.parse (b : List W8) : Desc :=
  let a := natAt b 0 4
  let g := natAt b 8 8
  { dim := fld a 0 16, fmt := fld a 16 4, rowScale := bit a 20, t0 := bit a 21, promote := bit a 22, migrate := bit a 23
    replicate := bit a 24, scale := w32 (natAt b 4 4), rows := fld g 0 40, grain := fld g 40 6, group := fld g 48 7
    self := fld g 56 6, members := [], key := w32 (natAt b 24 4), t1 := natAt b 28 4, t2 := natAt b 32 4
    promo := natAt b 36 2, repl := natAt b 38 2, t2base := w64 (natAt b 40 8), t3lba := natAt b 48 6
    drives := natAt b 54 1, chans := w64 (natAt b 56 8) }

/-- GROUP_ADDR of a descriptor. -/
def groupAddr (b : List W8) : W64 := w64 (natAt b 16 8)

/-- ROWBYTES (R156). -/
def Desc.rowBytes (d : Desc) : Nat := elemBytes d.fmt d.dim + 4 * b01 d.rowScale

/-- The row pitch: the smallest power of two of at least 16 and ROWBYTES (R156). -/
def Desc.pitch (d : Desc) : Nat := (([16, 32, 64, 128, 256, 512, 1024, 2048].find? fun p => d.rowBytes ≤ p).getD 4096)

/-- Rows per block. -/
def Desc.rpb (d : Desc) : Nat := 4096 / d.pitch

/-- The group member a row belongs to (R152). -/
def Desc.ownerOf (d : Desc) (r : Nat) : Nat := r / 2 ^ d.grain % d.group

/-- The local index of a row on its owner (R152). -/
def Desc.localOf (d : Desc) (r : Nat) : Nat := r / 2 ^ d.grain / d.group * 2 ^ d.grain + r % 2 ^ d.grain

/-- L, the number of local rows of member `m` (R152). -/
def Desc.localRows (d : Desc) (m : Nat) : Nat :=
  let grains := cdiv d.rows (2 ^ d.grain)
  if grains ≤ m then 0
  else
    let g := m + (grains - 1 - m) / d.group * d.group
    g / d.group * 2 ^ d.grain + min (2 ^ d.grain) (d.rows - g * 2 ^ d.grain)

/-- LB, the blocks of the shard (R153). -/
def Desc.blocks (d : Desc) : Nat := cdiv (d.localRows d.self) d.rpb

/-- Home tier of a block: 1, 2 or 3 (R153). -/
def Desc.tier (d : Desc) (b : Nat) : Nat := if b < d.t1 then 1 else if b < d.t1 + d.t2 then 2 else 3

/-- The drives of the mask, ascending. -/
def Desc.driveList (d : Desc) : List Nat := (List.range 8).filter fun k => bit d.drives k

/-- Drive and LBA of a block with home tier T3 (R153). -/
def Desc.t3Place (d : Desc) (b : Nat) : Nat × Nat :=
  let i := b - d.t1 - d.t2
  let n := d.driveList.length
  (d.driveList.getD (i % n) 0, d.t3lba + i / n)

/-- A table of a tenant that exists (R151). -/
def State.table? (s : State) (t h : Nat) : Option Shard :=
  match s.emb.tabs.get (t, h) with
  | some sh => if sh.defining.isSome then none else some sh
  | none => none

/-- A table that exists for a command: one being retired does for those that named it when the retire began, and for the retire (R151). -/
def State.tableFor (s : State) (x : Ctx) (h : Nat) : Option Shard :=
  match s.table? x.ten h with
  | some sh => match sh.retiring with
    | some (i, l) => if i = x.id ∨ l.contains x.id then some sh else none
    | none => some sh
  | none => none

/-- The state with a table changed. -/
def State.updTab (s : State) (t h : Nat) (f : Shard → Shard) : State :=
  s.withEmb fun e => { e with tabs := e.tabs.upd (t, h) (Option.map f) }

/-- A counter of Table 08.5 advanced. -/
def State.stat (s : State) (t h k n : Nat) : State := s.updTab t h fun sh => { sh with stats := sh.stats.upd k (· + w64 n) }

/-- The state with a directory entry changed. -/
def State.updDir (s : State) (t h b : Nat) (f : BlkDir → BlkDir) : State :=
  s.updTab t h fun sh => { sh with dir := sh.dir.upd b f }

/-- The sub-page (page · 512 + k) of a block's tier T1 copy, if it has one (R154). -/
def Shard.loc (sh : Shard) (b : Nat) : Option Nat :=
  match (sh.dir.get b).loc with
  | some l => some l
  | none => if b < sh.d.t1 then some (sh.home.getD (b / 512) 0 * 512 + b % 512) else none

/-- A read of stacked memory by physical address. -/
def State.physRead (s : State) (pa n : Nat) : Except Fail (List W8) :=
  let ls := (List.range ((pa + n - 1) / 64 - pa / 64 + 1)).map fun i => pa / 64 + i
  match ls.findSome? s.heldCause, ls.find? s.linePoison with
  | some c, _ => .error (.held c)
  | none, some l => .error (.poison l)
  | none, none => .ok (memGets s.mem.bytes pa n)

/-- Stack bytes of a physical extent in whole lines. -/
def physBytes (pa n : Nat) : Nat := if n = 0 then 0 else ((pa + n - 1) / 64 - pa / 64 + 1) * 64

/-- A write of stacked memory by physical address, line by line. -/
def State.physWriteGo : (fuel : Nat) → State → (pa : Nat) → List W8 → State × Option Fail
  | 0, s, _, _ => (s, none)
  | _ + 1, s, _, [] => (s, none)
  | k + 1, s, pa, bs =>
    let n := 64 - pa % 64
    match s.lineWrite pa (bs.take n) with
    | .error e => (s, some e)
    | .ok s' => State.physWriteGo k s' (pa + n) (bs.drop n)

/-- A write of stacked memory by physical address. -/
def State.physWrite (s : State) (pa : Nat) (bs : List W8) : State × Option Fail := State.physWriteGo (bs.length + 1) s pa bs

/-- Accounts of a tenant and its partition in a unit. -/
def State.tenAccts (s : State) (t u : Nat) : List Acct := workAccts (vf t) (s.tenPart t) u

/-! ### Shared bounds (R48 to R50, R169) -/

/-- Units of a shared resource a partition may still take. -/
def poolAvail (bound : Nat) (rsv : Nat → Nat) (used : Option Nat → Nat) (p : Option Nat) : Nat :=
  let pool := bound - sumParts rsv
  let excess := (List.range 16).foldl (fun n k => n + (used (some k) - rsv k)) (used none)
  (match p with
    | some k => rsv k - used p
    | none => 0) + (pool - excess)

/-- Miss-tracker entries a partition may still take (Table 02.14, cause 3). -/
def State.missAvail (s : State) (p : Option Nat) : Nat :=
  poolAvail 262144 (fun k => s.rfld .inflightRsv 16 11 k * 256) (fun q => (s.emb.reads.filter fun r => r.part = q).length) p

/-- Far-tier requests a partition may still take (cause 4). -/
def State.farAvail (s : State) (p : Option Nat) : Nat :=
  poolAvail 8192 (fun k => s.rfld .inflightRsv 32 11 k * 8) (fun q => (s.emb.far.filter fun r => r.part = q).length +
    (s.seq.ops.filter fun o => o.part = q ∧ o.outstanding).length) p

/-- After units of cause 3 or 4 were freed, the oldest held queue that one now serves goes on (R48). -/
def State.freedUnits (s : State) (cause : Nat) : State :=
  match s.oldestHeld cause (fun k => 0 < (if cause = 3 then s.missAvail (s.queuePart k) else s.farAvail (s.queuePart k))) with
  | some q => s.unhold q cause
  | none => s

/-! ### The row cache (R165 to R167) -/

/-- Key of a sketch counter. -/
def sketchKey (p t h row k : Nat) : Nat × Nat × Nat := (p, k, (Config.sketchHash k t h row).toNat)

/-- A row's estimate: the least of its four counters. -/
def State.estimate (s : State) (p t h row : Nat) : Nat :=
  (List.range 4).foldl (fun m k => min m (s.emb.sketch.get (sketchKey p t h row k))) 255

/-- A lookup counted in the sketch: the least counter and every counter equal to it rise, to 255 at most (R166). -/
def State.sketchAdd (s : State) (p t h row : Nat) : State :=
  let m := s.estimate p t h row
  s.withEmb fun e => { e with sketch := (List.range 4).foldl (fun sk k =>
    if sk.get (sketchKey p t h row k) = m ∧ m < 255 then sk.set (sketchKey p t h row k) (m + 1) else sk) e.sketch }

/-- The cached line of a row in a partition. -/
def State.cached (s : State) (p t h row : Nat) : Option RowLine :=
  s.emb.lines.find? fun l => l.part = p ∧ l.ten = t ∧ l.tab = h ∧ l.row = row

/-- Capacity of a partition's row cache in bytes. -/
def State.cacheBytes (s : State) (p : Nat) : Nat := s.rfld .rowcache 0 8 p * 2 ^ 20

/-- Bytes of rows that lines hold. -/
def lineBytes (ls : List RowLine) : Nat := ls.foldl (fun n l => n + l.bytes.length) 0

/-- The leading lines that free `n` bytes. -/
def roomFor (n : Nat) : List RowLine → List RowLine
  | [] => []
  | l :: ls => if n = 0 then [] else l :: roomFor (n - l.bytes.length) ls

/-- ROW_CACHE_ADMIT (R167): an arriving row enters its set of 16 if its estimate reaches θ and a place is free or its
estimate exceeds the victim's.  DESIGN CHOICE (log 69): a set holds rows of one pitch; where the cache is full of other sets' rows, the rows with
the least estimates of all are the victims. -/
def State.admitRow (s : State) (p t h row : Nat) (d : Desc) (bytes : List W8) : State :=
  let cap := s.cacheBytes p
  let sets := cap / (16 * d.pitch)
  if !d.t0 || sets == 0 || (s.cached p t h row).isSome then s
  else
    let est := s.estimate p t h row
    if est < s.rfld .rcTheta 0 8 p then s
    else
      let setOf (t h r : Nat) : Nat := Config.cacheSet t h r % sets
      let all := s.emb.lines.filter fun l => l.part = p
      let mine := all.filter fun l => l.bytes.length = d.pitch ∧ setOf l.ten l.tab l.row = setOf t h row
      let cs := (List.range 16).filter fun c => s.rbit .cells c p
      let put (u : State) : State :=
        (u.withEmb fun e =>
          { e with
            lines := e.lines ++ [{ part := p, ten := t, tab := h, row := row, bytes := bytes, used := s.now.toNat
                                   cell := cs.getD (Config.cacheSet t h row % max 1 cs.length) 0 }]
            admitted := e.admitted.upd p (· + d.pitch) }).radd64 .rcAdmits p 0 1
      if mine.length < 16 ∧ lineBytes all + d.pitch ≤ cap then put s
      else
        let worse (a b : RowLine) : Bool :=
          let ea := s.estimate p a.ten a.tab a.row
          let eb := s.estimate p b.ten b.tab b.row
          ea < eb || (ea == eb && a.used < b.used)
        let gone := if mine ≠ [] then (mine.mergeSort fun a b => !worse b a).take 1
          else roomFor (lineBytes all + d.pitch - cap) (all.mergeSort fun a b => !worse b a)
        if gone.all fun v => decide (s.estimate p v.ten v.tab v.row < est) then
          put (s.withEmb fun e => { e with lines := e.lines.filter fun l => !gone.contains l })
        else s

/-! ### Delivering rows -/

/-- The state with one gather changed. -/
def State.updGather (s : State) (gid : Nat) (f : Gather → Gather) : State :=
  s.withEmb fun e => { e with gathers := e.gathers.map fun g => if g.gid = gid then f g else g }

/-- The state with one service changed. -/
def State.updServe (s : State) (sv : Nat) (f : Serve → Serve) : State :=
  s.withLnk fun n => { n with serves := n.serves.map fun x => if x.sv = sv then f x else x }

/-- A section of which a row, or a block, has been read poisoned is refused: the manual gives no REASON for it, which is free (log 70). -/
def State.refuseSec (s : State) (sv sec : Nat) : State :=
  let (v, t) := s.free
  t.updServe sv fun x =>
    { x with
      secs := x.secs.zipIdx.map fun e => if e.2 = sec ∧ e.1.refuse.isNone then { e.1 with refuse := some (v.toNat % 256) } else e.1
      todo := x.todo.filter fun k => k.1 ≠ sec }

/-- A row reaches who asked for it. -/
def State.deliver (s : State) (w : RowFor) (bytes : List W8) : State :=
  match w with
  | .gather gid pos => s.updGather gid fun g => { g with rows := g.rows.set pos (some bytes) }
  | .serve sv sec idx =>
    let t := s.updServe sv fun x =>
      { x with secs := (x.secs.zipIdx).map fun e => if e.2 = sec then { e.1 with got := e.1.got.set idx (some bytes) } else e.1 }
    match (s.lnk.serves.find? fun x => x.sv = sv).bind fun x => x.secs[sec]? with
    | some c => t.stat c.ten c.tab 6 1
    | none => t

/-- The bytes of a row from the block's tier T1 copy. -/
def State.rowAt (s : State) (sh : Shard) (row : Nat) : Option (Except Fail (List W8)) :=
  match sh.loc (row / sh.d.rpb) with
  | some l => some (s.physRead (4096 * l + row % sh.d.rpb * sh.d.pitch) sh.d.pitch)
  | none => none

/-- The row read `k` ends: its miss-tracker entry is freed. -/
def State.endRead (s : State) (k : Nat) : State :=
  (s.withEmb fun e => { e with reads := e.reads.filter fun r => r.k ≠ k }).freedUnits 3

/-- A row read beyond tier T0 delivers its row, which may enter the row cache (R167, R169). -/
def State.rowArrived (s : State) (r : RowRead) (d : Desc) (bytes : List W8) : State :=
  let s1 := (s.deliver r.for_ bytes).endRead r.k
  match s1.tenPart r.ten with
  | some p => s1.admitRow p r.ten r.tab r.row d bytes
  | none => s1

/-! ### Committing a row (R178) -/

/-- The whole row replaces the row of a tier T1 copy, in that instant also in the row cache; the version rises.  With a far
home the block becomes DIRTY. -/
def State.commitRow (s : State) (t h row : Nat) (bytes : List W8) : State × Option Fail :=
  match s.table? t h with
  | none => (s, none)
  | some sh =>
    let b := row / sh.d.rpb
    let img := bytes.take sh.d.rowBytes ++ List.replicate (sh.d.pitch - sh.d.rowBytes) 0
    match sh.loc b with
    | none => (s, none)
    | some l =>
      match s.physWrite (4096 * l + row % sh.d.rpb * sh.d.pitch) img with
      | (s1, some e) => (s1, some e)
      | (s1, none) =>
        let s2 := s1.withEmb fun e => { e with lines := e.lines.map fun c =>
          if c.ten = t ∧ c.tab = h ∧ c.row = row then { c with bytes := img } else c }
        ((s2.updDir t h b fun x => { x with version := x.version + 1, dirty := x.dirty || decide (sh.d.t1 ≤ b) }).stat t h 8 1, none)

/-- Number of rows of an update. -/
def UpdRows.len : UpdRows → Nat
  | .list l => l.length
  | .run _ n => n

/-- Row of entry `i`. -/
def UpdRows.row (u : UpdRows) (i : Nat) : Nat :=
  match u with
  | .list l => l.getD i 0
  | .run a _ => a + i

/-- `n` rows of a command have committed; with the last one it completes (R178). -/
def State.committed (s : State) (id : CtxId) (n : Nat) : State :=
  match s.emb.upds.find? fun u => u.id = id with
  | none => s
  | some u =>
    if u.committed + n < u.rows.len then
      s.withEmb fun e => { e with upds := e.upds.map fun v => if v.id = id then { v with committed := v.committed + n } else v }
    else
      let s1 := s.withEmb fun e => { e with upds := e.upds.filter fun v => v.id ≠ id }
      let d := match s.ctx? id with
        | some x => if x.op = 0x34 then u.rows.len else u.rows.len % 2 ^ 24
        | none => 0
      (s1.releaseCtx id).finish id stDone (w32 d)

/-! ### Far operations (R170 to R172, R359, R360) -/

/-- The state with one far operation changed. -/
def State.updFar (s : State) (k : Nat) (f : FarOp → FarOp) : State :=
  s.withEmb fun e => { e with far := e.far.map fun o => if o.k = k then f o else o }

/-- A far operation ends and its request is freed. -/
def State.endFar (s : State) (k : Nat) : State :=
  (s.withEmb fun e => { e with far := e.far.filter fun o => o.k ≠ k }).freedUnits 4

/-- The lowest far-tier request index not in use (R360). -/
def State.freeFar (s : State) : Nat := ((List.range 8192).find? fun k => (s.emb.far.all fun o => o.k ≠ k) && s.seq.ops.all fun o => o.k ≠ k).getD 0

/-- A drive is attached: ENABLE and ONLINE (R359). -/
def State.attached (s : State) (d : Nat) : Bool := s.rbit .nvmeCfg 0 d && s.rbit .nvmeCfg 1 d

/-- PF device address of an offset of the NVMe area (R358). -/
def State.areaAddr (s : State) (o : Nat) : Nat := pageSize * s.rfld .nvmeCtrl 0 15 + o

/-- QDEPTH and QPAIRS of a drive. -/
def State.qdepth (s : State) (d : Nat) : Nat := s.rfld .nvmeCfg 9 10 d + 1
def State.qpairs (s : State) (d : Nat) : Nat := s.rfld .nvmeCfg 2 7 d

/-- Offset of a drive's register of queue pair `y`: `cq` 0 the submission tail, 1 the completion head (R360). -/
def State.nvBell (s : State) (d y cq v : Nat) : State :=
  let a := (s.rnat .nvmeBar d - s.rnat .nvmeBar d % 4096) + 0x1000 + (2 * y + cq) * 4 * 2 ^ s.rfld .nvmeCfg 19 4 d
  s.send (.hostWrite 0 a (toBytes 4 v))

/-- An NVMe submission entry (R360). -/
def sqe (op cid nsid : Nat) (prp lba : Nat) : List W8 :=
  toBytes 4 (op + cid * 65536) ++ toBytes 4 nsid ++ toBytes 16 0 ++ toBytes 8 prp ++ toBytes 8 0 ++ toBytes 8 lba ++ toBytes 16 0

/-- The next queue pair of a drive with room, in turn (R360).  DESIGN CHOICE (log 71): a pair that still owes a late completion of identifier `k` comes
after the others. -/
def State.nextPair (s : State) (d k : Nat) : Option Nat :=
  let n := s.qpairs d
  let room (y : Nat) : Bool := decide ((s.emb.nvq.get (d, y)).out + 1 < s.qdepth d)
  let ys := ((List.range n).map fun i => (s.emb.nvTurn.get d + i) % n + 1).filter room
  (ys.find? fun y => !(s.emb.nvq.get (d, y)).late.contains k).orElse fun _ => ys.head?

/-- Bytes a write operation carries: the staged block, or the tier T1 copy. -/
def State.farBytes (s : State) (o : FarOp) : Except Fail (List W8) :=
  if o.data ≠ [] then .ok o.data
  else match s.table? o.ten o.tab with
    | some sh => match sh.loc o.blk with
      | some l => s.physRead (4096 * l) 4096
      | none => .ok (List.replicate 4096 0)
    | none => .ok (List.replicate 4096 0)

/-- What an attempt to issue a far operation comes to: issued, no queue pair has room yet, or it fails. `noRepeat` on a
detached drive (R359). -/
inductive Issue where
  | issued (s : State)
  | wait (s : State)
  | fails (noRepeat : Bool)

/-- Stack bytes of a far operation, charged to its shard's tenant in requests of 4 KiB (R76, R79, R170); what has been paid stands while the
rest waits. -/
def State.payFar (s : State) (o : FarOp) (n : Nat) : State × Bool :=
  let (t, m) := s.payPart (s.tenAccts o.ten 1) 4096 (n - o.paid) o.ten (s.tenPart o.ten)
  if n ≤ o.paid + m then (t.updFar o.k fun p => { p with paid := 0 }, true)
  else (t.updFar o.k fun p => { p with paid := o.paid + m }, false)

/-- Stack bytes read and written to issue a far operation: the block of a write, from tier T1 or from its staging; for tier T3 also the submission
entry, and the staging of a tier T1 block (R170, R360). -/
def farCost (o : FarOp) (tier : Nat) : Nat :=
  (if o.kind = .write then 4096 else 0) +
    (if tier = 2 ∧ o.kind ≠ .flush then 0 else 64 + (if o.kind = .write ∧ o.data = [] then 4096 else 0))

/-- Lines of device memory that a far operation touches to be issued wait (R17, R219). -/
def State.farHeld (s : State) (o : FarOp) (sh : Shard) : Bool :=
  o.kind == .write && o.data == [] && (match sh.loc o.blk with
    | some l => (List.range 64).any fun i => (s.heldCause (64 * l + i)).isSome
    | none => false)

/-- Issues a far operation (R170, R172, R355, R360). -/
def State.farTry (s : State) (o : FarOp) : Issue :=
  let mark (t : State) (qp : Option Nat) (ver : W64) : State :=
    t.updFar o.k fun p => { p with outstanding := true, issued := s.now, tries := p.tries + 1, qp := qp, seen := ver }
  match s.table? o.ten o.tab with
  | none => .fails true
  | some sh =>
    if o.kind ≠ .flush ∧ sh.d.tier o.blk = 2 then
      if !s.hostUp (vf o.ten) then .fails false
      else if !s.clockOn 28 || s.farHeld o sh then .wait s
      else match s.payFar o (farCost o 2) with
        | (s0, false) => .wait s0
        | (s0, true) =>
          if o.kind = .read then .issued (mark s0 none 0)
          else match s0.farBytes o with
            | .error _ => .fails true
            | .ok bs =>
              .issued (mark (s0.send (.hostWrite (vf o.ten) (sh.d.t2base.toNat + 4096 * (o.blk - sh.d.t1)) bs)) none (sh.dir.get o.blk).version)
    else if !s.attached o.drive then .fails true
    else if !s.hostUp 0 then .fails false
    else match s.nextPair o.drive o.k with
      | none => .wait s
      | some y =>
        let n := o.drive * 64 + y - 1
        let q := s.emb.nvq.get (o.drive, y)
        let stage := s.areaAddr (41943040 + 4096 * o.k)
        let entry := s.areaAddr (65536 * n + 64 * q.tail)
        if !s.clockOn 28 || s.farHeld o sh || (s.extHeld 0 stage 4096).isSome || (s.extHeld 0 entry 64).isSome then .wait s
        else match s.payFar o (farCost o 3) with
        | (s0, false) => .wait s0
        | (s0, true) =>
        match (if o.kind = .write then s0.farBytes o else .ok []) with
        | .error _ => .fails true
        | .ok bs =>
          let (s1, _) := if bs = [] then (s0, none) else s0.devWrite 0 stage bs
          let code := match o.kind with
            | .read => 2
            | .write => 1
            | .flush => 0
          let prp := if o.kind = .flush then 0 else Config.pfBar4.toNat + stage
          let lba := if o.kind = .flush then 0 else (sh.d.t3Place o.blk).2
          let (s2, _) := s1.devWrite 0 entry (sqe code o.k (s.rfld .nvmeNsid 0 32 o.drive) prp lba)
          let tail := (q.tail + 1) % s.qdepth o.drive
          let s3 := (s2.withEmb fun e =>
            { e with
              nvq := e.nvq.upd (o.drive, y) fun v => { v with tail := tail, out := v.out + 1 }
              nvTurn := e.nvTurn.set o.drive y }).nvBell o.drive y 0 tail
          .issued (mark s3 (some y) (sh.dir.get o.blk).version)

/-- FAR_TIMEOUT of a partition in ticks (Table 08.4; 0 acts as 1). -/
def State.farTimeout (s : State) (p : Option Nat) : Nat :=
  match p with
  | some k => max 1 (s.rfld .embPolicy 4 12 k) * 100000
  | none => 5000000

/-- FAR_RETRY of a partition. -/
def State.farRetry (s : State) (p : Option Nat) : Nat :=
  match p with
  | some k => s.rfld .embPolicy 0 3 k
  | none => 1

/-- FAR_ERROR on the tenant's ring, its count (R172, Table 08.7), and its entry of class 8 in the fault log. -/
def State.farError (s : State) (o : FarOp) (timeout : Bool) (nvme : Nat) : State :=
  let tier := match s.emb.tabs.get (o.ten, o.tab) with
    | some sh => if o.kind = .flush then 3 else sh.d.tier o.blk
    | none => 3
  let s1 := s.logFault { cls := 8, island := 28, action := if o.kind = .read ∨ o.load.isSome ∨ o.job.isSome then 2 else 0
                         tenant := o.ten, part := o.part.getD 0xFF }
  (s1.radd32 .embFarErr o.ten 0 1).event (vf o.ten)
    { code := 0x0801, island := 28, d0 := o.tab + tier * 1024 + o.drive % 8 * 4096 + b01 timeout * 32768 + nvme % 65536 * 65536
      d1 := o.blk % 2 ^ 32, d2 := o.tries }

/-- A command ends because a far operation failed for good (R172): ST_FAULT with the block index, no fault policy. -/
def State.farFault (s : State) (id : CtxId) (blk : Nat) : State := (s.releaseCtx id).finish id stFault (w32 blk)

/-- Who asked for a row read. -/
def State.askers (s : State) (atts : List Att) : List CtxId :=
  (atts.filterMap fun a => match a with
    | .upd id _ _ => some id
    | .row k => match s.emb.reads.find? fun r => r.k = k with
      | some r => match r.for_ with
        | .gather gid _ => (s.emb.gathers.find? fun g => g.gid = gid).map (·.x.id)
        | .serve .. => none
      | none => none).dedup

/-- Row reads that waited on a far operation go on as reads of their own: ROW_READ_COMPLETE looks for the copy in use again. -/
def State.rereads (s : State) (p : RowRead → Bool) : State :=
  s.withEmb fun e => { e with reads := e.reads.map fun r => if p r then { r with far := false } else r }

/-- Row reads of peers' services that wait on a far fetch that failed are made again (log 70). -/
def State.dropServeReads (s : State) (atts : List Att) : State :=
  s.rereads fun r => (match r.for_ with
    | .serve .. => true
    | .gather .. => false) && atts.contains (.row r.k)

/-- A write-back job hears of one of its writes: `ok`, or the block that failed. -/
def State.jobWrote (s : State) (id : CtxId) (bad : Option Nat) : State :=
  s.withEmb fun e => { e with jobs := e.jobs.map fun j =>
    if j.id = id then { j with out := j.out - 1, wrote := j.wrote + b01 bad.isNone, failed := j.failed.orElse fun _ => bad } else j }

/-- A far operation has failed after its repeats (R172): a read ends every command attached to its block; a write-back leaves
the block DIRTY. -/
def State.farGiveUp (s : State) (o : FarOp) (timeout : Bool) (nvme : Nat) : State :=
  let s1 := (s.farError o timeout nvme).endFar o.k
  let s2 := (s1.dropServeReads o.atts)
  let ids := s.askers o.atts ++ (match o.load with
    | some (id, _) => [id]
    | none => [])
  let s3 := ids.foldl (fun t id => t.farFault id o.blk) s2
  match o.job with
  | some id => s3.jobWrote id (some o.blk)
  | none => s3

/-- Issues a far operation, or counts a failed attempt: repeated up to FAR_RETRY times (R172).  An operation for which no queue
pair has room waits. -/
def State.farGo : (fuel : Nat) → State → (k : Nat) → State
  | 0, s, _ => s
  | n + 1, s, k =>
    match s.emb.far.find? fun o => o.k = k with
    | none => s
    | some o =>
      match s.farTry o with
      | .issued t => t
      | .wait t => t
      | .fails once =>
        let s1 := (if once then s else s.logPcie).updFar k fun p => { p with tries := p.tries + 1, outstanding := false }
        if once || decide (s.farRetry o.part ≤ o.tries) then s1.farGiveUp { o with tries := o.tries + 1 } false 0
        else State.farGo n s1 k

/-- A failed attempt of an issued operation: repeat, or give up (R172). -/
def State.farFailed (s : State) (o : FarOp) (timeout : Bool) (nvme : Nat) : State :=
  let s1 := s.updFar o.k fun p => { p with outstanding := false }
  if o.tries ≤ s.farRetry o.part then State.farGo 9 s1 o.k
  else s1.farGiveUp o timeout nvme

/-- A new far operation. -/
def State.farNew (s : State) (o : FarOp) : State := State.farGo 9 (s.withEmb fun e => { e with far := e.far ++ [o] }) o.k

/-- A far operation not yet issued. -/
def FarOp.fresh (k : Nat) (kind : FarKind) (part : Option Nat) (t h b drive : Nat) : FarOp :=
  { k := k, kind := kind, part := part, ten := t, tab := h, blk := b, drive := drive, qp := none, tries := 0, issued := 0
    outstanding := false, data := [], atts := [], commits := 0, load := none, job := none }

/-- The drive of a block of a shard (0 for a tier T2 block). -/
def Shard.driveOf (sh : Shard) (b : Nat) : Nat := if sh.d.tier b = 3 then (sh.d.t3Place b).1 else 0

/-- Bytes of row `row` in a staged block. -/
def blockRow (d : Desc) (row : Nat) (data : List W8) : List W8 := sliceB data (row % d.rpb * d.pitch) d.pitch

/-- A staged block with one row replaced. -/
def blockPut (d : Desc) (row : Nat) (bytes data : List W8) : List W8 :=
  let o := row % d.rpb * d.pitch
  data.take o ++ (bytes.take d.rowBytes ++ List.replicate (d.pitch - d.rowBytes) 0) ++ data.drop (o + d.pitch)

/-- Serves what waits on a fetched block that has been promoted, in attach order (R169): rows are read from, and updates commit
to, the tier T1 copy. -/
def State.servePromoted (s : State) (t h : Nat) (d : Desc) : List Att → State
  | [] => s
  | .row k :: l =>
    match s.emb.reads.find? fun r => r.k = k, s.table? t h with
    | some r, some sh => match s.rowAt sh r.row with
      | some (.ok bs) => State.servePromoted (s.rowArrived r d bs) t h d l
      | _ => State.servePromoted (s.rereads fun q => q.k == k) t h d l
    | _, _ => State.servePromoted s t h d l
  | .upd id row bytes :: l =>
    match s.commitRow t h row bytes, s.ctx? id with
    | (s1, some e), some x => State.servePromoted (s1.failCmd x (if x.op = 0x34 then 4 else 6) 0 e) t h d l
    | (s1, _), _ => State.servePromoted (s1.committed id 1) t h d l

/-- The leading updates of an attach list. -/
def leadUpds : List Att → Nat
  | .upd .. :: l => leadUpds l + 1
  | _ => 0

/-- Serves what waits on a fetched block that is not promoted (PROMOTE = 0): rows from the fetched data; at the first update the
block is written home with the leading run of updates, which commit when that write completes (R171, R178). -/
def State.serveFetched : (fuel : Nat) → State → (k : Nat) → (d : Desc) → State
  | 0, s, _, _ => s
  | n + 1, s, k, d =>
    match s.emb.far.find? fun o => o.k = k with
    | none => s
    | some o =>
      match o.atts with
      | [] => s.endFar k
      | .row rk :: l =>
        let s1 := s.updFar k fun p => { p with atts := l }
        match s.emb.reads.find? fun r => r.k = rk with
        | some r => State.serveFetched n (s1.rowArrived r d (blockRow d r.row o.data)) k d
        | none => State.serveFetched n s1 k d
      | .upd .. :: _ =>
        let c := leadUpds o.atts
        let data := (o.atts.take c).foldl (fun b a => match a with
          | .upd _ row bytes => blockPut d row bytes b
          | .row _ => b) o.data
        State.farGo 9 (s.updFar k fun p => { p with kind := .write, data := data, commits := c, tries := 0, outstanding := false }) k

/-- Sub-pages of a pool of pages. -/
def subPages (ps : List Nat) : List Nat := (ps.map fun p => (List.range 512).map fun i => p * 512 + i).flatten

/-- Sub-pages that moves under way, or planned, of a table are to fill. -/
def State.moveDsts (s : State) (t h : Nat) : List Nat := ((s.emb.moves ++ s.emb.plan).filter fun m => m.ten = t ∧ m.tab = h).map (·.dst)

/-- A free sub-page of a shard's promotion pool. -/
def Shard.freePromo (sh : Shard) (taken : List Nat) : Option Nat :=
  (subPages sh.promo).find? fun l => !taken.contains l && sh.dir.ents.all fun e => e.2.loc ≠ some l

/-- A write-back of the block is outstanding. -/
def State.writing (s : State) (t h b : Nat) : Bool :=
  s.emb.far.any fun o => o.ten == t && o.tab == h && o.blk == b && o.kind == .write

/-- Starts the write-back of a DIRTY block (R171); the caller has checked that a far-tier request is free. -/
def State.writeBack (s : State) (t h b : Nat) (sh : Shard) (job : Option CtxId) : State :=
  s.farNew { FarOp.fresh s.freeFar .write (s.tenPart t) t h b (sh.driveOf b) with job := job }

/-- The promoted block to evict: the least used of eight that the device chooses (R171); the choice is free. -/
def State.promoVictim (s : State) (t h : Nat) (sh : Shard) : State × Option Nat :=
  let cand := (sh.dir.ents.filter fun e => e.2.loc.isSome && decide (sh.d.t1 ≤ e.1) && !e.2.migrating && !s.writing t h e.1).map (·.1)
  if cand = [] then (s, none)
  else
    let pick (p : State × List Nat) (_ : Nat) : State × List Nat :=
      let (v, u) := p.1.free
      (u, cand.getD (v.toNat % cand.length) 0 :: p.2)
    let (s1, l) := (List.range 8).foldl pick (s, [])
    (s1, l.foldl (fun m b => match m with
      | none => some b
      | some c => if (sh.dir.get b).use < (sh.dir.get c).use then some b else some c) none)

/-- Installs a fetched block in the promotion pool, evicting if need be; a DIRTY victim is written back first, and the block
waits for its space (R171). -/
def State.promote (s : State) (k : Nat) : State :=
  match s.emb.far.find? fun o => o.k = k with
  | none => s
  | some o =>
    match s.table? o.ten o.tab with
    | none => s.endFar k
    | some sh =>
      -- a sub-page whose lines wait is taken later (R17, R219)
      let install (t : State) (l : Nat) (out : State → State) : State :=
        if (List.range 64).any fun i => (t.heldCause (64 * l + i)).isSome then t
        else match t.payFar o 4096 with
          | (t1, false) => t1
          | (t1, true) =>
            let t2 := ((out t1).physWrite (4096 * l) (sliceB o.data 0 4096)).1.updDir o.ten o.tab o.blk fun x =>
              { x with loc := some l, dirty := false, use := 1 }
            State.servePromoted ((t2.stat o.ten o.tab 11 1).endFar k) o.ten o.tab sh.d o.atts
      match sh.freePromo (s.moveDsts o.ten o.tab) with
      | some l => install s l id
      | none =>
        match s.promoVictim o.ten o.tab sh with
        | (s1, none) => s1
        | (s1, some v) =>
          let e := sh.dir.get v
          if e.dirty then (if 0 < s1.farAvail o.part then s1.writeBack o.ten o.tab v sh none else s1)
          else match e.loc with
            | some l => install s1 l fun t => t.updDir o.ten o.tab v fun x => { x with loc := none }
            | none => s1

/-- A block that has arrived goes on once its staging has been paid for: the staging's write, and for tier T3 the read of it (R76, R170). -/
def State.farServe (s : State) (k : Nat) : State :=
  match s.emb.far.find? fun o => o.k = k ∧ o.kind = .read ∧ !o.outstanding ∧ o.data ≠ [] with
  | none => s
  | some o =>
    match s.table? o.ten o.tab with
    | none => s.endFar k
    | some sh =>
      let promotes := sh.d.promote ∧ sh.promo ≠ []
      let n := if sh.d.tier o.blk = 3 then 8192 else if promotes then 0 else 4096
      match (if o.staged then (s, true) else s.payFar o n) with
      | (t, false) => t
      | (t, true) =>
        let u := t.updFar k fun p => { p with staged := true }
        if promotes then u.promote k else State.serveFetched (o.atts.length + 1) u k sh.d

/-- Fetched blocks that wait, for promotion space or an account, try again. -/
def State.promotePump (s : State) : State :=
  ((s.emb.far.filter fun o => o.kind = .read ∧ !o.outstanding ∧ o.data ≠ []).map (·.k)).foldl (fun u k => u.farServe k) s

/-- Services whose validation of a block has failed take the block that arrives (R199). -/
def State.giveBlock (s : State) (t h b : Nat) (data : List W8) : State :=
  match s.table? t h with
  | none => s
  | some sh =>
    let v := (sh.dir.get b).version
    let grant (x : Serve) (k : Nat) : Bool := (x.grants.getD []).any fun g => g.1 == k && g.2 == b
    let asks (x : Serve) : Bool := x.whole && x.secs.zipIdx.any (fun e => e.1.refuse.isNone && e.1.ten == t && e.1.tab == h &&
      (grant x e.2 || e.1.vals.any fun k => k.1 == b && k.2 != v.toNat % 2 ^ 32)) && !(x.blks.any fun k => k.ten == t && k.tab == h && k.blk == b)
    s.withLnk fun n => { n with serves := n.serves.map fun x => if asks x then { x with blks := x.blks ++ [⟨t, h, b, v, data⟩] } else x }

/-- A block arrives from a far tier (R171). -/
def State.farArrived (s : State) (o : FarOp) (data : List W8) : State :=
  match s.table? o.ten o.tab with
  | none => s.endFar o.k
  | some sh =>
    let s1 := ((s.giveBlock o.ten o.tab o.blk data).stat o.ten o.tab (if sh.d.tier o.blk = 2 then 3 else 4) 1).updFar o.k fun p =>
      { p with data := data, outstanding := false }
    s1.farServe o.k

/-- The row-cache lines of a block's rows take the block as written (R178). -/
def State.linesAnew (s : State) (o : FarOp) (d : Desc) : State :=
  s.withEmb fun e => { e with lines := e.lines.map fun c =>
    if c.ten = o.ten ∧ c.tab = o.tab ∧ c.row / d.rpb = o.blk then { c with bytes := blockRow d c.row o.data } else c }

/-- A home-tier write has completed (R171, R178): the updates it carried commit, or the block is clean and its space may be
reused. -/
def State.farWrote (s : State) (o : FarOp) : State :=
  match s.table? o.ten o.tab with
  | none => s.endFar o.k
  | some sh =>
    let s1 := s.stat o.ten o.tab 12 1
    match o.load with
    | some (id, n) =>
      -- a block written whole by TABLE_LOAD; lookups that attached meanwhile are served from it
      let s2 := ((s1.updDir o.ten o.tab o.blk fun x => { x with version := x.version + w64 n }).stat o.ten o.tab 8 n).linesAnew o sh.d
      let s3 := s2.updFar o.k fun p => { p with kind := .read, outstanding := false, load := none }
      (State.serveFetched (o.atts.length + 1) s3 o.k sh.d).committed id n
    | none =>
      if o.commits ≠ 0 then
        let run := o.atts.take o.commits
        let s2 := (s1.updDir o.ten o.tab o.blk fun x => { x with version := x.version + w64 o.commits }).stat o.ten o.tab 8 o.commits
        let s3 := s2.linesAnew o sh.d
        let s4 := s3.updFar o.k fun p => { p with kind := .read, outstanding := false, atts := o.atts.drop o.commits, commits := 0 }
        let s5 := State.serveFetched (o.atts.length + 1) s4 o.k sh.d
        run.foldl (fun t a => match a with
          | .upd id _ _ => t.committed id 1
          | .row _ => t) s5
      else
        -- an update committed meanwhile leaves the block DIRTY where it is (R178)
        let same := decide ((sh.dir.get o.blk).version = o.seen)
        let s2 := (s1.endFar o.k).updDir o.ten o.tab o.blk fun x =>
          if same then { x with dirty := false, loc := if o.job.isSome then x.loc else none } else x
        (match o.job with
        | some id => s2.jobWrote id none
        | none => s2).promotePump

/-! ### One lookup of an owned row (R165, R166, R169, R179) -/

/-- The row-cache line that a lookup of an owned row hits, with its partition (R165). -/
def State.t0Hit (s : State) (t h row : Nat) (sh : Shard) : Option (Nat × RowLine) :=
  match s.tenPart t with
  | some p => if sh.d.t0 then (s.cached p t h row).map fun l => (p, l) else none
  | none => none

/-- What a lookup needs before it can be made: a free miss-tracker entry (3) or far-tier request (4); `none` if it can go on. -/
def State.lookupNeeds (s : State) (part : Option Nat) (t h row : Nat) (sh : Shard) : Option Nat :=
  if (s.t0Hit t h row sh).isSome then none
  else if s.missAvail part = 0 then some 3
  else
    let b := row / sh.d.rpb
    if (sh.loc b).isSome || s.emb.far.any (fun o => o.ten == t && o.tab == h && o.blk == b && o.kind != .flush) then none
    else if s.farAvail part = 0 then some 4 else none

/-- Stack bytes of a lookup: the row's lines, where it is read from tier T1 (R164). -/
def State.lookupBytes (s : State) (t h row : Nat) (sh : Shard) : Nat :=
  if (s.t0Hit t h row sh).isSome then 0
  else match sh.loc (row / sh.d.rpb) with
    | some l => physBytes (4096 * l + row % sh.d.rpb * sh.d.pitch) sh.d.pitch
    | none => 0

/-- One lookup: a row-cache hit delivers at once; otherwise a row read is issued, attached to a far fetch of the block where its
authoritative copy lies in a far tier. -/
def State.lookup (s : State) (w : RowFor) (part : Option Nat) (t h row : Nat) : State :=
  match s.table? t h with
  | none => s
  | some sh =>
    let b := row / sh.d.rpb
    let s1 := s.stat t h 0 1
    let s2 := match s.tenPart t with
      | some p => if sh.d.t0 then (s1.radd64 .rcLookups p 0 1).sketchAdd p t h row else s1
      | none => s1
    match s2.t0Hit t h row sh with
    | some (p, l) =>
      let s3 := (s2.stat t h 1 1).radd64 .rcHits p 0 1
      let s4 := s3.withEmb fun e => { e with lines := e.lines.map fun c => if c = l then { c with used := s.now.toNat } else c }
      s4.deliver w l.bytes
    | none =>
      let k := s2.emb.nextK
      let far := (sh.loc b).isNone
      let s3 := s2.withEmb fun e =>
        { e with
          nextK := k + 1
          reads := e.reads ++ [{ k := k, for_ := w, part := part, ten := t, tab := h, row := row, far := far }] }
      if !far then
        s3.updTab t h fun x =>
          { x with dir := x.dir.upd b fun d => { d with use := if sh.d.t1 ≤ b then min 255 (d.use + 1) else d.use } }
      else match s3.emb.far.find? fun o => o.ten == t && o.tab == h && o.blk == b && o.kind != .flush with
        | some o => s3.updFar o.k fun p => { p with atts := p.atts ++ [.row k] }
        | none => s3.farNew { FarOp.fresh s3.freeFar .read part t h b (sh.driveOf b) with atts := [.row k] }

end Sys2Proof.Machine
end

