-- ==== Sys2Proof/Machine/TableOps.lean ====
section
/-! DEFINITION. The commands of family 0x3 and the table engine's own events: gathers and pooling, row updates and loads,
define, retire, flush and statistics, row and far completions, placement (R157 to R181). -/

namespace Sys2Proof.Machine

/-! ### Small shared steps -/

/-- Progress of a sliced command: `k` more units done. -/
def State.advance (s : State) (id : CtxId) (k : Nat) : State :=
  s.updCtx id fun y => match y.work with
    | .units e n d sl a b => { y with work := .units e n (d + k) (sl + 1) a b }
    | _ => y

/-- A command begins sliced work of `n` units on an engine. -/
def State.beginUnits (s : State) (x : Ctx) (e : Engine) (n : Nat) : State :=
  s.updCtx x.id fun y => { y with phase := .running, begunAt := s.now, work := .units e n 0 0 0 0 }

/-- A command waits for something other than an engine. -/
def State.beginWait (s : State) (x : Ctx) (a b : Nat) : State :=
  s.updCtx x.id fun y => { y with phase := .running, begunAt := s.now, work := .waits s.now a b }

/-- A staged output reaches its destination; a single nibble replaces only its half of the byte (R119). -/
def State.putStaged (s : State) (fn : Nat) (h : HostData) (g : Staged) : State × Option Fail :=
  if g.nib = 0 then s.opWrite fn g.addr g.bytes
  else match s.opRead fn h g.addr 1 with
    | .error e => (s, some e)
    | .ok o =>
      let a := ofBytes o
      let b := ofBytes g.bytes
      s.opWrite fn g.addr [BitVec.ofNat 8 (if g.nib = 1 then a / 16 * 16 + b % 16 else a % 16 + b / 16 * 16)]

/-- Why staged outputs cannot be put before any of them is: a destination that has left the function's pages, a link that issues nothing, or
an access that waits. -/
def State.putBad (s : State) (fn : Nat) (l : List Staged) : Option Fail :=
  (l.findSome? fun g =>
    if isDev g.addr then (if s.extOk fn (offOf g.addr) g.bytes.length then none else some .range)
    else if s.hostUp fn then none else some .host).orElse fun _ =>
  l.findSome? fun g =>
    if isDev g.addr then (s.extHeld fn (offOf g.addr) g.bytes.length).map .held else if s.clockOn 28 then none else some (.held 1)

/-- Staged outputs in order; a poisoned line ends them (R224). -/
def State.putGo (s : State) (fn : Nat) (h : HostData) : List Staged → State × Option Fail
  | [] => (s, none)
  | g :: l =>
    match s.putStaged fn h g with
    | (t, none) => State.putGo t fn h l
    | (t, some e) => (t, some e)

/-- Several staged outputs: where one cannot be put, none is (R133). -/
def State.putAll (s : State) (fn : Nat) (h : HostData) (l : List Staged) : State × Option Fail :=
  match s.putBad fn l with
  | some e => (s, some e)
  | none => s.putGo fn h l

/-- The far requests, row reads and updates of a command hold its queue on a cause until a unit is free (R48). -/
def State.holdFor (s : State) (x : Ctx) (cause : Nat) : State := s.hold x.id.q cause

/-! ### GATHER_POOL (R159 to R164) -/

namespace GatherOp
/-- POOL, OFMT, BAGS, BAGLEN and the output pitch of a packet (Table 08.2). -/
def pool (x : Ctx) : Nat := fld (x.w 2) 10 3
def ofmt (x : Ctx) : Nat := fld (x.w 2) 16 4
def bags (x : Ctx) : Nat := fld (x.w 3) 0 24
def bagLen (x : Ctx) : Nat := fld (x.w 14) 16 16
def pitch (x : Ctx) : Nat := fld (x.w 14) 0 16 * 64
def tab (x : Ctx) : Nat := fld (x.w 2) 0 10
end GatherOp

/-- First index of bag `j`, and of the first bag past the last. -/
def Gather.start (g : Gather) (j : Nat) : Nat :=
  if GatherOp.bagLen g.x = 0 then g.offs.getD j 0 else j * GatherOp.bagLen g.x

/-- The index after the last. -/
def Gather.stop (g : Gather) : Nat := g.start (GatherOp.bags g.x)

/-- Offsets never decrease. -/
def rising : List Nat → Bool
  | a :: b :: l => decide (a ≤ b) && rising (b :: l)
  | _ => true

/-- What check 7 asks of a GATHER_POOL against its table (R160): the accumulator area, and a pitch that holds a row. -/
def gatherTabConds (x : Ctx) (d : Desc) : List (Bool × Nat × Nat) :=
  [if d.group > 1 then (x.a 12 != 0 && aligned (x.a 12) 64, 12, lowBit 12 ((x.a 12).toNat % 64)) else zeroC (x.a 12) 12,
   (decide (elemBytes (GatherOp.ofmt x) d.dim ≤ GatherOp.pitch x), 14, 0)]

/-- The extents of OUT and of the accumulators, which depend on the table. -/
def gatherTabExts (x : Ctx) (d : Desc) : List Ext :=
  let bags := GatherOp.bags x
  [⟨10, x.a 10, (bags - 1) * GatherOp.pitch x + elemBytes (GatherOp.ofmt x) d.dim⟩] ++
    (if d.group > 1 then [⟨12, x.a 12, bags * (cdiv (4 * d.dim + 4) 64 * 64)⟩] else [])

/-- What of a GATHER_POOL's checks 6, 7 and 8 depends on its table (R160). -/
def State.gatherBad (s : State) (x : Ctx) (d : Desc) (explicit : Bool) : Option (Nat × W32) :=
  if d.group > 1 ∧ !explicit then some (stBadPacket, badDetail 0 0 6)
  else (rangeBad (gatherTabConds x d)).orElse fun _ => s.check89 x.fn (gatherTabExts x d)

/-- The step of a context is an explicit one. -/
def State.inStep (s : State) (x : Ctx) : Bool :=
  match s.step? x.sid with
  | some st => st.explicit
  | none => false

/-- GATHER_POOL begins (R159, R160): offsets first, the layer record captured, then slices of indices. -/
def State.gatherBegin (s : State) (x : Ctx) (h : HostData) : State :=
  let t := GatherOp.tab x
  match s.tableFor x t with
  | none => s.finish x.id stBadPacket (badDetail 2 0 7)
  | some sh =>
    let late : Bool := match s.step? x.sid with
      | some st => st.exchRun
      | none => false
    match s.gatherBad x sh.d (s.inStep x) with
    | some (st, d) => s.finish x.id st d
    | none =>
    if sh.d.group > 1 ∧ late then s.finish x.id stRefused 2
    else
      let n := GatherOp.bags x
      let bl := GatherOp.bagLen x
      let go (u : State) (offs : List Nat) : State :=
        let lo := if bl = 0 then offs.headD 0 else 0
        let hi := if bl = 0 then offs.getLastD 0 else n * bl
        let one := if bl = 0 then (List.range n).all fun j => offs.getD (j + 1) 0 == offs.getD j 0 + 1 else bl == 1
        if !rising offs || decide (16777215 < hi - lo) || (GatherOp.pool x == 0 && !one) then
          u.finish x.id stBadPacket (badDetail 6 0 7)
        else
          match u.check89 x.fn ([⟨4, addrAdd (x.a 4) (8 * lo), 8 * (hi - lo)⟩] ++
            (if GatherOp.pool x = 4 then [⟨8, addrAdd (x.a 8) (4 * lo), 4 * (hi - lo)⟩] else [])) with
          | some (st, d) => u.finish x.id st d
          | none =>
            let start (v : State) (cap : MatCap) : State :=
              let gid := v.emb.nextK
              let v1 := v.withEmb fun e =>
                { e with
                  nextK := gid + 1
                  gathers := e.gathers ++ [{ gid := gid, x := x, offs := offs, next := lo, rows := .of none, wts := .of 0
                                             skip := [], remote := [], fin := [], cap := cap, done := false }] }
              v1.beginUnits x (.gather 0) (hi - lo)
            if ignoresLayer (GatherOp.ofmt x) then start u (MatCap.fresh 0 false none {} 0 [])
            else match u.captureLayer x (fld (x.w 15) 0 10) (GatherOp.ofmt x) with
              | .error (st, d) => u.finish x.id st d
              | .ok (v, r, d) => start v (MatCap.fresh 0 false (some (fld (x.w 15) 0 10)) r d [])
      if bl ≠ 0 then go s []
      else s.gate x (stackBytes (x.a 6) (4 * (n + 1))) fun u =>
        let u := u.meetOp x.fn (x.a 6) (4 * (n + 1))
        match u.opRead x.fn h (x.a 6) (4 * (n + 1)) with
        | .error e => u.failCmd x 6 0 e
        | .ok bs => go u ((List.range (n + 1)).map fun j => natAt bs (4 * j) 4)

/-- The elements of a row with their row scale applied (R161), as FP32 values; on the exact path the bare elements. -/
def rowElem (d : Desc) (bytes : List W8) (i : Nat) : Fv :=
  let (o, n) := elemAt d.fmt i
  let e := decodeFmt d.fmt (elemOf d.fmt i (sliceB bytes o n))
  if d.rowScale then f32 (toF32 (e.mul (f32 (w32 (natAt bytes (elemBytes d.fmt d.dim) 4))))) else e

/-- One pooled element (R161) from the bag's values in pooling order, each with its weight. -/
def poolElem (d : Desc) (mode : Nat) (ys : List (Fv × W32)) : W32 :=
  let sc := f32 d.scale
  let n := ofInt ys.length
  match ys with
  | [] => 0
  | y0 :: rest =>
    let vals := ys.map (·.1)
    if vals.any Fv.isNan then 0x7FC00000
    else if (d.fmt = 0 ∨ d.fmt = 1) ∧ !d.rowScale ∧ (mode = 1 ∨ mode = 2 ∨ mode = 3) then
      let red := if mode = 3 then rest.foldl (fun a y => a.max2 y.1) y0.1 else sumFv vals
      let v := red.mul sc
      toF32 (if mode = 2 then v.div n else v)
    else
      let acc : W32 :=
        if mode = 0 ∨ mode = 3 then toF32 (rest.foldl (fun a y => a.max2 y.1) y0.1)
        else if mode = 4 then ys.foldl (fun a y => toF32 (((f32 y.2).mul y.1).add (f32 a))) 0
        else ys.foldl (fun a y => toF32 ((f32 a).add y.1)) 0
      let v := mulF acc d.scale
      if mode = 2 then toF32 ((f32 v).div n) else v

/-- A bag can be finalised: every index of it has been read, and every row that is not left out has arrived. -/
def Gather.ready (g : Gather) (j : Nat) : Bool :=
  decide (g.start (j + 1) ≤ g.next) &&
  (List.range (g.start (j + 1) - g.start j)).all fun i =>
    (g.rows.get (g.start j + i)).isSome || g.skip.contains (g.start j + i)

/-- The pooled values of a bag: local rows first, then remote rows, each in position order (R161). -/
def Gather.pooled (g : Gather) (d : Desc) (j : Nat) : List W32 :=
  let ps := (List.range (g.start (j + 1) - g.start j)).map (g.start j + ·)
  let isRem (p : Nat) : Bool := g.remote.any fun r => r.1 == p
  let order := (ps.filter fun p => !isRem p) ++ ps.filter isRem
  let rows := order.filterMap fun p => (g.rows.get p).map fun b => (b, g.wts.get p)
  (List.range d.dim).map fun i => poolElem d (GatherOp.pool g.x) (rows.map fun e => (rowElem d e.1 i, e.2))

/-- Stack bytes that a gather's next write still needs, as its accounts allow (R79, R81): the state, and whether all has been paid. -/
def State.payBag (s : State) (g : Gather) (n : Nat) : State × Bool :=
  let (t, m) := s.payPart (workAccts g.x.fn g.x.part 1) 64 (n - g.paid) (whoOf g.x.fn) g.x.part
  (t.updGather g.gid fun k => { k with paid := if n ≤ g.paid + m then 0 else g.paid + m }, decide (n ≤ g.paid + m))

/-- Bytes of one bag's accumulator area, in whole lines (R160). -/
def accBytes (d : Desc) : Nat := cdiv (4 * d.dim + 4) 64 * 64

/-- Finalises one bag: pools, converts, writes, and counts (R161, R162); a bag that waits on the Exchange reads its accumulators (R163, R164).
Answers false where the bag waits. -/
def State.finishBag (s : State) (g : Gather) (d : Desc) (h : HostData) (j : Nat) : State × Bool :=
  let x := g.x
  let f := GatherOp.ofmt x
  let vs := g.pooled d j
  let cs := vs.map (convertTo f g.cap.divisor)
  let out := stageRow f (addrAdd (x.a 10) (j * GatherOp.pitch x)) 0 (cs.map (·.bits))
  let need := stackBytes (addrAdd (x.a 10) (j * GatherOp.pitch x)) (elemBytes f d.dim) +
    (if g.done ∧ isDev (x.a 12) then accBytes d else 0)
  match s.payBag g need with
  | (s1, false) => (s1, false)
  | (s1, true) =>
  match s1.putAll x.fn h out with
  | (s2, some (.held _)) => (s2.updGather g.gid fun k => { k with paid := need }, false)
  | (s2, some e) => (s2.failCmd x 10 0 e, true)
  | (s2, none) =>
    let am := if g.cap.layer.isSome then vs.foldl amaxF 0 else 0
    let s3 := s2.updGather g.gid fun g =>
      { g with
        fin := j :: g.fin
        cap := { g.cap with
          amax := amaxF g.cap.amax am
          sat := g.cap.sat + (cs.filter (·.sat)).length
          nans := g.cap.nans + (cs.filter (·.nan)).length
          committedAny := true } }
    ((match g.cap.layer with
    | some l => s3.updSlot x.sid l fun k => { k with contrib := some (amaxF (k.contrib.getD 0) am) }
    | none => s3), true)

/-- Bags that can be finalised, in order; the first that waits ends them. -/
def State.finishBags (s : State) (gid : Nat) (d : Desc) (h : HostData) : List Nat → State
  | [] => s
  | j :: l => match s.emb.gathers.find? fun k => k.gid = gid with
    | none => s
    | some g => match s.finishBag g d h j with
      | (t, true) => State.finishBags t gid d h l
      | (t, false) => t

/-- A gather whose bags are all finalised ends: its counts go to the layer record, and a misfit is reported (R162, R144). -/
def State.endGather (s : State) (g : Gather) (d : Desc) : State :=
  let x := g.x
  let s1 := s.withEmb fun e => { e with gathers := e.gathers.filter fun k => k.gid ≠ g.gid }
  match g.cap.layer with
  | none => s1
  | some l =>
    let s2 := ((s1.updLayer x.ten l fun r => { r with lastAmax := g.cap.amax, satTotal := r.satTotal + w32 g.cap.sat }).radd32
      .quantSat x.ten 0 g.cap.sat).radd32 .quantNan x.ten 0 g.cap.nans
    let e := GatherOp.bags x * d.dim
    if misfits g.cap.rec_ g.cap.sat e then
      s2.misfit x l g.cap.rec_ (GatherOp.ofmt x) (if g.cap.rec_.mode = 1 then 2 else 0) g.cap.sat e 16
    else s2

/-- The accumulator area of the bags that wait on the Exchange holds their partial results in a form the manual does not give:
its bytes are free (R163, assumption log 3). -/
def State.accFill (s : State) (g : Gather) (d : Desc) : State :=
  let n := accBytes d
  ((List.range (GatherOp.bags g.x)).filter fun j => !g.fin.contains j).foldl (fun t j =>
    let (bs, u) := (List.range (n / 8)).foldl (fun (p : List W8 × State) _ =>
      let (v, u) := p.2.free
      (p.1 ++ toBytes 8 v.toNat, u)) ([], t)
    (u.opWrite g.x.fn (addrAdd (g.x.a 12) (j * n)) bs).1) s

/-- Finalises every bag of a gather that can be, completes the command when its local bags are done, and ends the gather with
its last bag (R163). -/
def State.gatherPump (s : State) (gid : Nat) (h : HostData) : State :=
  match s.emb.gathers.find? fun g => g.gid = gid with
  | none => s
  | some g =>
    match s.table? g.x.ten (GatherOp.tab g.x) with
    | none => s
    | some sh =>
      let due := (List.range (GatherOp.bags g.x)).filter fun j => !g.fin.contains j && g.ready j
      let s1 := s.finishBags gid sh.d h due
      match s1.emb.gathers.find? fun k => k.gid = gid with
      | none => s1
      | some g1 =>
        let isRem (p : Nat) : Bool := g1.remote.any fun r => r.1 == p
        let all := g1.fin.length == GatherOp.bags g1.x
        let local_ := all || (decide (g1.next = g1.stop) && (List.range (GatherOp.bags g1.x)).all fun j =>
          g1.fin.contains j || (List.range (g1.start (j + 1) - g1.start j)).any fun i => isRem (g1.start j + i))
        let s2 := if all then s1.endGather g1 sh.d else s1
        if local_ && !g1.done then
          let left := GatherOp.bags g1.x - g1.fin.length
          match (if all then (s2, true) else s2.payBag g1 (if isDev (g1.x.a 12) then left * accBytes sh.d else 0)) with
          | (t, false) => t
          | (t, true) =>
            let s3 := (if all then t else t.accFill g1 sh.d).updGather gid fun k => { k with done := true }
            s3.finish g1.x.id stDone (w32 (sat (2 ^ 24 - 1) g1.remote.length + b01 (g1.skip ≠ []) * 2 ^ 24))
        else s2

/-- Room for one more request of a step: in its pages, or on a page taken now, which a gather waits for where it is DIRTY (R196, R212, R213). -/
def State.reqRoom (s : State) (x : Ctx) : State × Bool :=
  let used := (s.emb.reqs.filter fun r => r.sid = x.sid).length
  let ps := s.emb.reqPages.get x.sid
  if s.claimsOf x.id ≠ 0 then (s, false)
  else if used < ps.length * 131072 then (s, true)
  else match s.allocPages x.id (.dev x.ten) (x.part.getD 0) 0 false 1 with
    | .error _ => (s, false)
    | .ok (t, l) => (t.withEmb fun e => { e with reqPages := e.reqPages.set x.sid (ps ++ l) }, t.claimsOf x.id = 0)

/-- One index of a gather (R160, R163, R164).  Answers false when the gather has to wait or has ended. -/
def State.gatherOne (s : State) (g : Gather) (sh : Shard) (h : HostData) : State × Bool :=
  let x := g.x
  let p := g.next
  let t := GatherOp.tab x
  let wsum := GatherOp.pool x = 4
  let ia := addrAdd (x.a 4) (8 * p)
  let wa := addrAdd (x.a 8) (4 * p)
  let first := p = g.start 0
  let need := (if first ∨ p % 8 = 0 then stackBytes ia 8 else 0) + (if wsum ∧ (first ∨ p % 16 = 0) then stackBytes wa 4 else 0)
  let accts := workAccts x.fn x.part 1
  if !s.pass accts need then (s.waitOn accts need (whoOf x.fn) x.part, false)
  else
    let s := (s.meetOp x.fn ia 8).meetOp x.fn wa (4 * b01 wsum)
    match s.opRead x.fn h ia 8, (if wsum then s.opRead x.fn h wa 4 else .ok []) with
    | .error e, _ => (s.failCmd x 4 0 e, false)
    | _, .error e => (s.failCmd x 8 0 e, false)
    | .ok ib, .ok wb =>
      let v := ofBytes ib
      let step (u : State) (f : Gather → Gather) : State :=
        (u.updCtx x.id fun y => { y with paid := 0 }).updGather g.gid fun k =>
          f { k with next := p + 1, wts := if wsum then k.wts.set p (w32 (ofBytes wb)) else k.wts }
      if sh.d.rows ≤ v then
        let keep : Bool := match x.part with
          | some q => s.rbit .embPolicy 3 q
          | none => false
        if keep then ((step (s.chargeStack x need) fun k => { k with skip := p :: k.skip }).radd32 .embBadidx x.ten 0 1, true)
        else ((s.releaseCtx x.id).finish x.id stRange 4, false)
      else
        let m := sh.d.ownerOf v
        if sh.d.group = 1 ∨ m = sh.d.self then
          let row := sh.d.localOf v
          let line := s.lookupBytes x.ten t row sh
          match s.lookupNeeds x.part x.ten t row sh with
          | some c => (s.holdFor x c, false)
          | none =>
            if !s.pass accts (need + line) then (s.waitOn accts (need + line) (whoOf x.fn) x.part, false)
            else
              let s1 := step (s.chargeStack x (need + line)) id
              (s1.lookup (.gather g.gid p) x.part x.ten t row, true)
        else match s.reqRoom x with
          | (t, false) => (t, false)
          | (s0, true) =>
            let dev := sh.d.members.getD m 0xFFFF
            let s1 := step (s0.chargeStack x need) fun k => { k with remote := k.remote ++ [(p, v, dev)] }
            (s1.withEmb fun e => { e with reqs := e.reqs ++ [⟨x.sid, dev, g.gid, p, v⟩] }, true)

/-- Up to `n` indices of a gather. -/
def State.gatherGo : (n : Nat) → State → (gid : Nat) → (h : HostData) → State
  | 0, s, _, _ => s
  | n + 1, s, gid, h =>
    match s.emb.gathers.find? fun g => g.gid = gid with
    | none => s
    | some g =>
      if g.stop ≤ g.next then s
      else match s.table? g.x.ten (GatherOp.tab g.x) with
        | none => s
        | some sh =>
          match s.gatherOne g sh h with
          | (t, true) => State.gatherGo n t gid h
          | (t, false) => t

/-- A slice of a gather: at most 64 indices (R164). -/
def State.gatherSlice (s : State) (x : Ctx) (n : Nat) (h : HostData) : State :=
  match s.emb.gathers.find? fun g => g.x.id = x.id ∧ !g.done with
  | none => s
  | some g =>
    let s1 := State.gatherGo (min n 64) s g.gid h
    let k := match s1.emb.gathers.find? fun k => k.gid = g.gid with
      | some k => k.next - g.next
      | none => 0
    (s1.advance x.id k).gatherPump g.gid h

/-! ### ROW_READ_COMPLETE (R169) -/

/-- Rows of a gather are requested from their owner once more, by a further transfer of its step's Exchange (log 72). -/
def State.askAgain (s : State) (gid : Nat) (ps : List Nat) : State :=
  match s.emb.gathers.find? fun g => g.gid = gid with
  | none => s
  | some g => s.withEmb fun e =>
      { e with reqs := e.reqs ++ (g.remote.filter fun q => ps.contains q.1).map fun q => Req.mk g.x.sid q.2.2 gid q.1 q.2.1 }

/-- A row of a replica is read and pooled (R176, R201); what the replica no longer holds is asked for again. -/
def State.replicaRead (s0 : State) (r : RowRead) (l : Nat) (d : Desc) (h : HostData) : State :=
  let pa := 4096 * l + r.row % d.rpb * d.pitch
  let s := s0.meetPhys pa d.pitch
  let anew (t : State) : State := (match r.for_ with
    | .gather gid pos => t.askAgain gid [pos]
    | .serve .. => t).endRead r.k
  if !s.emb.replicas.any fun q => q.loc == l && q.ten == r.ten && q.tab == r.tab && q.blk == r.row / d.rpb then anew s
  else match s.physRead pa d.pitch with
  | .error (.held _) => s
  | .error (.poison line) =>
    anew ((s.radd32 .poisonReads (chanOf (line * 64)) 0 1).withEmb fun e => { e with replicas := e.replicas.filter fun q => q.loc ≠ l })
  | .error _ => s.endRead r.k
  | .ok bs =>
    let s1 := ((s.deliver r.for_ bs).stat r.ten r.tab 7 1).endRead r.k
    match r.for_ with
    | .gather gid _ => s1.gatherPump gid h
    | .serve .. => s1

/-- ROW_READ_COMPLETE: the row is read from the copy in use and delivered; the waiting bag is finalised when it was the last.  A read that lines
keep waiting (R17, R219), or that needs a far-tier request where none is free (R48), completes later. -/
def State.rowReadComplete (s : State) (k : Nat) (h : HostData) : State :=
  match s.emb.reads.find? fun r => r.k = k ∧ !r.far with
  | none => s
  | some r =>
    match s.table? r.ten r.tab with
    | none => s.endRead k
    | some sh =>
      match r.repl with
      | some l => s.replicaRead r l sh.d h
      | none =>
      let b := r.row / sh.d.rpb
      match s.rowAt sh r.row, sh.loc b with
      | some (.error (.held _)), _ => s
      | some (.ok bs), some l =>
        let c := chanOf (4096 * l)
        let s1 := (s.stat r.ten r.tab 2 1).updTab r.ten r.tab fun x => { x with chan := x.chan.upd c (· + 1), blk := x.blk.upd b (· + 1) }
        let s2 := s1.rowArrived r sh.d bs
        match r.for_ with
        | .gather gid _ => s2.gatherPump gid h
        | .serve .. => s2
      | some (.error (.poison line)), _ =>
        match r.for_ with
        | .gather gid _ =>
          match s.emb.gathers.find? fun g => g.gid = gid with
          | some g => s.poisoned g.x line 0
          | none => s.endRead k
        | .serve sv sec _ => ((s.endRead k).radd32 .poisonReads (chanOf (line * 64)) 0 1).refuseSec sv sec
      | some (.error _), _ => s.endRead k
      | _, _ =>
        -- the block left tier T1 meanwhile: the read goes to its far tier
        let s1 := s.withEmb fun e => { e with reads := e.reads.map fun q => if q.k = k then { q with far := true } else q }
        match s1.emb.far.find? fun o => o.ten == r.ten && o.tab == r.tab && o.blk == b && o.kind != .flush with
        | some o => s1.updFar o.k fun p => { p with atts := p.atts ++ [.row k] }
        | none =>
          if s.farAvail r.part = 0 then
            (match r.for_ with
              | .gather gid _ => match s.emb.gathers.find? fun g => g.gid = gid with
                | some g => s.holdFor g.x 4
                | none => s
              | .serve .. => s)
          else s1.farNew { FarOp.fresh s1.freeFar .read r.part r.ten r.tab b (sh.driveOf b) with atts := [.row k] }

/-! ### ROW_UPDATE and TABLE_LOAD (R177, R178, R180) -/

/-- ROW_UPDATE begins (R177): every index is read first. -/
def State.rowUpdateBegin (s : State) (x : Ctx) (h : HostData) : State :=
  let t := fld (x.w 2) 0 10
  let n := fld (x.w 3) 0 17
  match s.tableFor x t with
  | none => s.finish x.id stBadPacket (badDetail 2 0 7)
  | some sh =>
    match s.check89 x.fn [⟨6, x.a 6, n * sh.d.pitch⟩] with
    | some (st, d) => s.finish x.id st d
    | none =>
      s.gate x (stackBytes (x.a 4) (8 * n)) fun u =>
        let u := u.meetOp x.fn (x.a 4) (8 * n)
        match u.opRead x.fn h (x.a 4) (8 * n) with
        | .error e => u.failCmd x 4 0 e
        | .ok bs =>
          let rows := (List.range n).map fun i => natAt bs (8 * i) 8
          if rows.any fun r => decide (sh.d.rows ≤ r) || (sh.d.group != 1 && sh.d.ownerOf r != sh.d.self) then
            u.finish x.id stRange 4
          else
            let u1 := u.withEmb fun e => { e with upds := e.upds ++ [⟨x.id, x.ten, t, .list (rows.map sh.d.localOf), 0, 0, x.begunAt⟩] }
            u1.beginUnits x (.gather 0) n

/-- TABLE_LOAD begins (R180). -/
def State.tableLoadBegin (s : State) (x : Ctx) : State :=
  let t := fld (x.w 2) 0 10
  let n := x.w 3
  let first := (x.a 6).toNat % 2 ^ 40
  match s.tableFor x t with
  | none => s.finish x.id stBadPacket (badDetail 2 0 7)
  | some sh =>
    match s.check89 x.fn [⟨4, x.a 4, n * sh.d.pitch⟩] with
    | some (st, d) => s.finish x.id st d
    | none =>
      if sh.d.localRows sh.d.self < first + n then s.finish x.id stRange 6
      else
        let s1 := s.withEmb fun e => { e with upds := e.upds ++ [⟨x.id, x.ten, t, .run first n, 0, 0, x.begunAt⟩] }
        s1.beginUnits x (if isDev (x.a 4) then s.copyEngine x.fn (x.a 4) else .memCopy 0) n

/-- A command dispatched at `d` comes before another in the order of their dispatch: the instant, then the lower queue, then count order (R178). -/
def dispatchLt (a : W64) (i : CtxId) (b : W64) (j : CtxId) : Bool :=
  decide (a.toNat < b.toNat) || (a == b && (decide (i.q < j.q) || (i.q == j.q && i.c != j.c && decide ((j.c - i.c).toNat < 2 ^ 31))))

/-- A command dispatched earlier still has to commit the row, or may have to: one that has not begun has not read its indices (R178). -/
def State.rowBusy (s : State) (u0 : Upd) (row : Nat) : Bool :=
  (s.emb.upds.any fun u => dispatchLt u.disp u.id u0.disp u0.id && u.ten == u0.ten && u.tab == u0.tab &&
    (match u.rows with
      | .list l => (l.drop u.next).contains row
      | .run a n => decide (a + u.next ≤ row) && decide (row < a + n))) ||
  s.cp.ctxs.any fun y => y.phase == .dispatched && dispatchLt y.begunAt y.id u0.disp u0.id && y.ten == u0.ten && y.fn != 0 &&
    fld (y.w 2) 0 10 == u0.tab &&
    (y.op == 0x33 || (y.op == 0x34 && decide ((y.a 6).toNat % 2 ^ 40 ≤ row) && decide (row < (y.a 6).toNat % 2 ^ 40 + y.w 3)))

/-- One entry of an update, or a whole far block of a load (R178, R180).  Answers how many entries went, 0 when it waits or ended. -/
def State.updateOne (s : State) (x : Ctx) (u : Upd) (sh : Shard) (h : HostData) (room : Nat) : State × Nat :=
  let row := u.rows.row u.next
  let b := row / sh.d.rpb
  let src := if x.op = 0x34 then x.a 4 else x.a 6
  let w := if x.op = 0x34 then 4 else 6
  let accts := workAccts x.fn x.part 1
  let move (v : State) (n : Nat) : State :=
    v.withEmb fun e => { e with upds := e.upds.map fun q => if q.id = x.id then { q with next := q.next + n } else q }
  if s.rowBusy u row then (s, 0)
  else
    let last := min (sh.d.localRows sh.d.self) ((b + 1) * sh.d.rpb)
    let whole := x.op = 0x34 ∧ (sh.loc b).isNone ∧ !(sh.d.promote ∧ sh.promo ≠ []) ∧ row % sh.d.rpb = 0 ∧
      last - row ≤ u.rows.len - u.next ∧ last - row ≤ room ∧
      !(s.emb.far.any fun o => o.ten == u.ten && o.tab == u.tab && o.blk == b)
    let n := if whole then last - row else 1
    let need := stackBytes (addrAdd src (u.next * sh.d.pitch)) (n * sh.d.pitch) +
      (match sh.loc b with
        | some l => physBytes (4096 * l + row % sh.d.rpb * sh.d.pitch) sh.d.pitch
        | none => 0)
    let held := match sh.loc b with
      | some l => (List.range 64).any fun i => (s.heldCause (64 * l + i)).isSome
      | none => false
    if held then (s, 0)
    else if !s.pass accts need then (s.waitOn accts need (whoOf x.fn) x.part, 0)
    else
      let s := s.meetOp x.fn (addrAdd src (u.next * sh.d.pitch)) (n * sh.d.pitch)
      match s.opRead x.fn h (addrAdd src (u.next * sh.d.pitch)) (n * sh.d.pitch) with
      | .error e => (s.failCmd x w 0 e, 0)
      | .ok bs =>
        let s1 := (s.chargeStack x need).updCtx x.id fun y => { y with paid := 0 }
        if whole then
          if s.farAvail x.part = 0 then (s.holdFor x 4, 0)
          else
            let data := (List.range n).foldl (fun d i => blockPut sh.d (row + i) (sliceB bs (i * sh.d.pitch) sh.d.pitch) d) (List.replicate 4096 0)
            (move (s1.farNew { FarOp.fresh s1.freeFar .write x.part u.ten u.tab b (sh.driveOf b) with data := data, load := some (x.id, n) }) n, n)
        else if (sh.loc b).isSome then
          match s1.commitRow u.ten u.tab row bs with
          | (s2, some e) => (s2.failCmd x w 0 e, 0)
          | (s2, none) => ((move s2 1).committed x.id 1, 1)
        else match s1.emb.far.find? fun o => o.ten == u.ten && o.tab == u.tab && o.blk == b && o.kind != .flush with
          | some o => ((move s1 1).updFar o.k fun p => { p with atts := p.atts ++ [.upd x.id row bs] }, 1)
          | none =>
            if s.farAvail x.part = 0 then (s.holdFor x 4, 0)
            else
              let o := { FarOp.fresh s1.freeFar .read x.part u.ten u.tab b (sh.driveOf b) with atts := [.upd x.id row bs] }
              ((move s1 1).farNew o, 1)

/-- Up to `n` entries of an update. -/
def State.updateGo : (fuel : Nat) → State → Ctx → (n : Nat) → (h : HostData) → State
  | 0, s, _, _, _ => s
  | k + 1, s, x, n, h =>
    match s.emb.upds.find? fun u => u.id = x.id with
    | none => s
    | some u =>
      if n = 0 ∨ u.rows.len ≤ u.next then s
      else match s.table? u.ten u.tab with
        | none => s
        | some sh =>
          match s.updateOne x u sh h n with
          | (t, 0) => t
          | (t, m) => State.updateGo k t x (n - m) h

/-- A slice of ROW_UPDATE (at most 64 entries) or TABLE_LOAD. -/
def State.updateSlice (s : State) (x : Ctx) (n : Nat) (h : HostData) : State :=
  let before := match s.emb.upds.find? fun u => u.id = x.id with
    | some u => u.next
    | none => 0
  let m := if x.op = 0x33 then min n 64 else n
  let s1 := State.updateGo m s x m h
  match s1.emb.upds.find? fun u => u.id = x.id with
  | some u => s1.advance x.id (u.next - before)
  | none => s1

/-! ### TABLE_DEFINE and TABLE_RETIRE (R157, R158, R376) -/

/-- Reserved bits of a descriptor (Table 08.1), as its bytes' number. -/
def descReserved : Nat :=
  (2 ^ 7 - 1) * 2 ^ 25 + 3 * 2 ^ (64 + 46) + 2 ^ (64 + 55) + 3 * 2 ^ (64 + 62) + 255 * 2 ^ (384 + 56)

/-- The descriptor's value rules (R157), apart from those on its members. -/
def State.descOk (s : State) (d : Desc) (ga : W64) : Bool :=
  decide (1 ≤ d.dim) && decide (d.dim ≤ 2048) && decide (d.fmt ≤ 6) && posNormal d.scale && decide (1 ≤ d.rows) &&
  decide (d.grain ≤ 40) && decide (1 ≤ d.group) && decide (d.group ≤ 64) && decide (d.self < d.group) &&
  (if d.group = 1 then ga == 0 else isDev ga) && decide (d.rowBytes ≤ 4096) && decide (d.t1 + d.t2 ≤ d.blocks) &&
  (decide (d.blocks ≤ d.t1 + d.t2) || d.driveList.any s.attached) && d.chans != 0 &&
  decide (d.t2base.toNat < 2 ^ 63) && d.t2base.toNat % 4096 == 0 && (d.t2 != 0 || d.t2base == 0)

/-- A table whose pages are all zero exists from now on (R151, R157). -/
def State.tableReady (s : State) (x : Ctx) : State :=
  let t := fld (x.w 2) 0 10
  match s.emb.tabs.get (x.ten, t) with
  | none => s
  | some sh =>
    let n := sh.home.length + sh.dirPages.length + sh.promo.length + sh.repl.length
    (s.updTab x.ten t fun q => { q with defining := none }).finish x.id stDone (w32 (n % 65536))

/-- TABLE_DEFINE (R155, R157). -/
def State.tableDefine (s : State) (x : Ctx) (h : HostData) : State :=
  let t := fld (x.w 2) 0 10
  s.gate x (stackBytes (x.a 4) 64) fun u =>
    let u := u.meetOp x.fn (x.a 4) 64
    match u.opRead x.fn h (x.a 4) 64 with
    | .error e => u.failCmd x 4 0 e
    | .ok b =>
      let rsv := ofBytes b &&& descReserved
      let d0 := Desc.parse b
      let ga := groupAddr b
      if rsv ≠ 0 then u.finish x.id stBadPacket (badDetail 4 (((List.range 512).find? fun i => bit rsv i).getD 0 % 32) 1)
      else if !u.descOk d0 ga || (d0.group != 1 && (!u.extOk x.fn (offOf ga) (4 * d0.group) || u.extSealed x.fn (offOf ga) (4 * d0.group))) then
        u.finish x.id stBadPacket (badDetail 4 0 7)
      else
        let goOn (v : State) (ms : List Nat) : State :=
          if (v.emb.tabs.get (x.ten, t)).isSome then v.finish x.id stRefused 1
          else
            let d := { d0 with members := ms }
            let nh := cdiv d.t1 512
            let nd := cdiv (16 * d.blocks) 2097152
            match v.allocPages x.id (.dev x.ten) (x.part.getD 0) d.chans false (nh + nd + d.promo + d.repl) with
            | .error _ => v.finish x.id stNoResource 0
            | .ok (w, ps) =>
              let sh : Shard :=
                { d := d, home := ps.take nh, dirPages := (ps.drop nh).take nd, promo := (ps.drop (nh + nd)).take d.promo
                  repl := ps.drop (nh + nd + d.promo), defining := some x.id }
              let w1 := w.withEmb fun e => { e with tabs := e.tabs.set (x.ten, t) (some sh) }
              if w1.claimsOf x.id = 0 then w1.tableReady x else w1.beginWait x 0 0
        let u := if d0.group = 1 then u else u.meetExt x.fn (offOf ga) (4 * d0.group)
        if d0.group = 1 then goOn u [0]
        else match u.devRead x.fn (offOf ga) (4 * d0.group) with
          | .error e => u.failCmd x 4 0 e
          | .ok m =>
            let es := (List.range d0.group).map fun i => natAt m (4 * i) 4
            if es.any fun e => 65536 ≤ e then u.finish x.id stBadPacket (badDetail 4 16 1) else goOn u es

/-- The table number a command of family 0x3 names. -/
def namesTable (x : Ctx) : Option Nat := if 0x30 ≤ x.op ∧ x.op ≤ 0x36 then some (fld (x.w 2) 0 10) else none

/-- The commands in flight that name a table as its TABLE_RETIRE `x` begins (R158): what follows it on its queue and has not been
dispatched comes after it, as does another retire. -/
def State.naming (s : State) (x : Ctx) (t : Nat) : List CtxId :=
  let before := (s.cp.ctxs.takeWhile fun y => y.id ≠ x.id).map (·.id)
  (s.cp.ctxs.filter fun y => y.fn == x.fn && y.phase != .done && y.op != 0x31 && namesTable y == some t &&
    (y.id.q != x.id.q || before.contains y.id || y.phase != .fetched)).map (·.id)

/-- A TABLE_RETIRE begins: from now on the table exists only for the commands that name it already (R151). -/
def State.startRetire (s : State) (x : Ctx) (t : Nat) : State :=
  s.updTab x.ten t fun q => { q with retiring := q.retiring.orElse fun _ => some (x.id, s.naming x t) }

/-- A retire must wait: a command in flight names the table, a gather of it waits on an Exchange, or rows of it are being read for a
peer (R158). -/
def State.tableBusy (s : State) (x : Ctx) (t : Nat) : Bool :=
  (match (s.table? x.ten t).bind fun sh => sh.retiring with
    | some (_, l) => s.cp.ctxs.any fun y => l.contains y.id && y.phase != .done
    | none => false) ||
  s.emb.gathers.any (fun g => g.x.fn == x.fn && GatherOp.tab g.x == t) ||
  s.emb.reads.any (fun r => r.ten == x.ten && r.tab == t)

/-- Every trace of a table goes: pages to the dirty list, row-cache lines, replicas, moves, far operations (R158). -/
def State.dropTable (s : State) (ten t : Nat) : State :=
  match s.emb.tabs.get (ten, t) with
  | none => s
  | some sh =>
    let s1 := (sh.home ++ sh.dirPages ++ sh.promo ++ sh.repl).foldl (fun u p =>
      if (u.mem.pages.get p).st = .held then u.unholdPage p else u) s
    (s1.withEmb fun e =>
      { e with
        tabs := e.tabs.clear (ten, t)
        lines := e.lines.filter fun l => !(l.ten = ten ∧ l.tab = t)
        replicas := e.replicas.filter fun r => !(r.ten = ten ∧ r.tab = t)
        moves := e.moves.filter fun m => !(m.ten = ten ∧ m.tab = t)
        plan := e.plan.filter fun m => !(m.ten = ten ∧ m.tab = t)
        far := e.far.filter fun o => !(o.ten = ten ∧ o.tab = t) }).freedUnits 4

/-- Blocks of a shard that are DIRTY. -/
def Shard.dirtyBlocks (sh : Shard) : List Nat := (sh.dir.ents.filter fun e => e.2.dirty).map (·.1)

/-- TABLE_RETIRE (R158): retiring from its begin; once nothing names the table it writes back, or releases at once. -/
def State.tableRetire (s : State) (x : Ctx) : State :=
  let t := fld (x.w 2) 0 10
  match s.tableFor x t with
  | none => s.finish x.id stBadPacket (badDetail 2 0 7)
  | some sh =>
    let s0 := s.startRetire x t
    if s0.tableBusy x t then s0.beginWait x 0 0
    else if x.sub = 1 ∧ sh.dirtyBlocks ≠ [] then
      let s1 := s0.withEmb fun e => { e with jobs := e.jobs ++ [⟨x.id, x.ten, t, sh.dirtyBlocks, 0, 0, 0, none⟩] }
      s1.beginUnits x (.memCopy 0) sh.dirtyBlocks.length
    else (s0.dropTable x.ten t).finish x.id stDone 0

/-- TABLE_FLUSH begins (R181). -/
def State.tableFlush (s : State) (x : Ctx) : State :=
  let t := fld (x.w 2) 0 10
  match s.tableFor x t with
  | none => s.finish x.id stBadPacket (badDetail 2 0 7)
  | some sh =>
    let s1 := s.withEmb fun e => { e with jobs := e.jobs ++ [⟨x.id, x.ten, t, sh.dirtyBlocks, 0, 0, 0, none⟩] }
    s1.beginUnits x (.memCopy 0) sh.dirtyBlocks.length

/-- One Flush to each drive of a list, as far-tier requests are free (R48, R181). -/
def State.flushDrives (s : State) (x : Ctx) (j : WbJob) : List Nat → State
  | [] => s
  | d :: l =>
    if s.farAvail x.part = 0 then s.holdFor x 4
    else
      let s1 := s.withEmb fun e => { e with jobs := e.jobs.map fun k =>
        if k.id = j.id then { k with flushes := k.flushes + 1, out := k.out + 1 } else k }
      State.flushDrives (s1.farNew { FarOp.fresh s1.freeFar .flush x.part j.ten j.tab 0 d with job := some j.id }) x j l

/-- A write-back job goes on: with every block written, TABLE_FLUSH flushes its drives, and the command completes (R158, R181,
R376). -/
def State.jobPump (s : State) (id : CtxId) : State :=
  match s.emb.jobs.find? (fun j => j.id = id), s.ctx? id with
  | some j, some x =>
    let drop (u : State) : State := u.withEmb fun e => { e with jobs := e.jobs.filter fun k => k.id ≠ id }
    match j.failed with
    | some b =>
      if j.out ≠ 0 then s
      else if x.op = 0x31 then ((drop s).updTab j.ten j.tab fun q => { q with retiring := none }).finish id stFault (w32 b)
      else (drop s).finish id stFault 0
    | none =>
      if j.todo ≠ [] ∨ (j.out ≠ 0 ∧ j.flushes = 0) then s
      else if x.op = 0x31 then ((drop s).dropTable j.ten j.tab).finish id stDone 0
      else
        let ds := match s.table? j.ten j.tab with
          | some sh => sh.d.driveList.drop j.flushes
          | none => []
        if ds ≠ [] then s.flushDrives x j ds
        else if j.out ≠ 0 then s
        else (drop s).finish id stDone (w32 j.wrote)
  | _, _ => s

/-- Every write-back job goes on. -/
def State.jobsPump (s : State) : State := s.emb.jobs.foldl (fun t j => t.jobPump j.id) s

/-- A slice of a write-back: starts up to `n` writes. -/
def State.writeBackGo : (n : Nat) → State → Ctx → State
  | 0, s, _ => s
  | n + 1, s, x =>
    match s.emb.jobs.find? fun j => j.id = x.id with
    | none => s
    | some j =>
      match j.todo, s.table? j.ten j.tab with
      | b :: rest, some sh =>
        if s.writing j.ten j.tab b then s
        else if s.farAvail x.part = 0 then s.holdFor x 4
        else
          let dirty := (sh.dir.get b).dirty
          let s1 := s.withEmb fun e => { e with jobs := e.jobs.map fun k =>
            if k.id = x.id then { k with todo := rest, out := k.out + b01 dirty } else k }
          let s2 := s1.advance x.id 1
          State.writeBackGo n (if dirty then s2.writeBack j.ten j.tab b sh (some x.id) else s2) x
      | _, _ => s

/-- TABLE_FLUSH or TABLE_RETIRE at a slice boundary. -/
def State.writeBackSlice (s : State) (x : Ctx) (n : Nat) : State := (State.writeBackGo n s x).jobPump x.id

/-! ### TABLE_STATS (R173) -/

/-- The 128 bytes of Table 08.5. -/
def Shard.statBytes (sh : Shard) (now : W64) : List W8 :=
  ((List.range 13).map fun i => toBytes 8 (sh.stats.get i).toNat).flatten ++ toBytes 4 sh.skew.toNat ++ toBytes 1 sh.hot ++
  toBytes 1 sh.cold ++ toBytes 2 0 ++ toBytes 8 now.toNat ++ toBytes 8 0

/-- TABLE_STATS. -/
def State.tableStats (s : State) (x : Ctx) : State :=
  match s.tableFor x (fld (x.w 2) 0 10) with
  | none => s.finish x.id stBadPacket (badDetail 2 0 7)
  | some sh =>
    let bs := if x.sub = 0 then sh.statBytes s.now
      else ((List.range 64).map fun c => toBytes 8 (sh.lastChan.get c)).flatten
    s.gate x (stackBytes (x.a 4) bs.length) fun u =>
      match u.opWrite x.fn (x.a 4) bs with
      | (v, some e) => v.failCmd x 4 0 e
      | (v, none) => v.finish x.id stDone 0

/-! ### Far completions (R170 to R172, R360) -/

/-- Gathers and jobs go on after rows or blocks arrived. -/
def State.embPump (s : State) (h : HostData) : State :=
  (s.emb.gathers.foldl (fun t g => t.gatherPump g.gid h) s).jobsPump

/-- The far operations that wait go on: those to be issued, for room in a drive's queue pairs or an account, and the blocks that have come. -/
def State.farWaiting (s : State) : State :=
  (((s.emb.far.filter fun o => !o.outstanding && decide (o.data = [] ∨ o.kind = .write)).map (·.k)).foldl (fun t k => State.farGo 9 t k) s).promotePump

/-- An outstanding far operation has completed. -/
def State.farDone (s : State) (o : FarOp) (data : List W8) : State :=
  match o.kind with
  | .read => s.farArrived o data
  | .write => s.farWrote o
  | .flush => match o.job with
    | some id => (s.endFar o.k).withEmb fun e => { e with jobs := e.jobs.map fun j => if j.id = id then { j with out := j.out - 1 } else j }
    | none => s.endFar o.k

/-- FAR_READ_COMPLETE (R170, R171): the host answers the read of a tier T2 block, or fails it. -/
def State.farReadComplete (s : State) (k : Nat) (data : Option (List W8)) (h : HostData) : State :=
  match s.emb.far.find? fun o => o.k = k ∧ o.kind = .read ∧ o.outstanding ∧ o.qp = none with
  | none => s
  | some o =>
    match data with
    | some bs => ((s.farArrived o (sliceB bs 0 4096)).farWaiting).embPump h
    | none => (s.logPcie.farFailed o false 0).embPump h

/-- FAR_WRITEBACK_COMPLETE (R171): a tier T2 write-back has been issued whole. -/
def State.farWritebackComplete (s : State) (k : Nat) (h : HostData) : State :=
  match s.emb.far.find? fun o => o.k = k ∧ o.kind = .write ∧ o.outstanding ∧ o.qp = none with
  | none => s
  | some o => ((s.farWrote o).farWaiting).embPump h

/-- A drive's queue pair still owes the completion of an operation given up (R172). -/
def State.owed (s : State) (o : FarOp) : State :=
  match o.qp with
  | some y => s.withEmb fun e => { e with nvq := e.nvq.upd (o.drive, y) fun q => { q with late := q.late ++ [o.k] } }
  | none => s

/-- A far operation leaves its drive's queue pair. -/
def State.leavePair (s : State) (o : FarOp) : State :=
  match o.qp with
  | some y => s.withEmb fun e => { e with nvq := e.nvq.upd (o.drive, y) fun q => { q with out := q.out - 1 } }
  | none => s

/-- FAR_TIMEOUT (R172): an operation outstanding for FAR_TIMEOUT has failed; a tier T2 write that has been issued cannot.  What a drive still owes
for it is discarded when it comes. -/
def State.farTimedOut (s : State) (k : Nat) (h : HostData) : State :=
  match s.emb.far.find? fun o => o.k = k ∧ o.outstanding ∧ (o.kind ≠ .write ∨ o.qp.isSome) with
  | none => s
  | some o => if ticks o.issued s.now < s.farTimeout o.part then s
    else (((s.leavePair o).owed o).farFailed o true 0).farWaiting.embPump h

/-- NVME_COMPLETION (R360): the entry at the head of a completion queue whose phase is the expected one completes its
operation; the head moves and its doorbell is written.  A late completion is discarded (R172). -/
def State.nvmeCompletion (s : State) (d y : Nat) (h : HostData) : State :=
  if !s.rbit .nvmeCtrl 16 || !s.rbit .nvmeCfg 0 d || y = 0 || decide (s.qpairs d < y) then s
  else
    let q := s.emb.nvq.get (d, y)
    let n := d * 64 + y - 1
    let at_ := s.areaAddr (33554432 + 16384 * n + 16 * q.head)
    let s := s.meetExt 0 at_ 16
    match s.devRead 0 at_ 16 with
    | .error (.poison l) => s.radd32 .poisonReads (chanOf (l * 64)) 0 1
    | .error _ => s
    | .ok e =>
      let w3 := natAt e 12 4
      if fld w3 16 1 ≠ q.phase then s
      else
        let head := (q.head + 1) % s.qdepth d
        let s1 := (s.withEmb fun m =>
          { m with nvq := m.nvq.upd (d, y) fun v => { v with head := head, phase := if head = 0 then 1 - v.phase else v.phase } }).nvBell d y 1 head
        let k := fld w3 0 16
        let st := fld w3 17 15
        -- what the pair owes of commands given up comes first (R172)
        if q.late.contains k then s1.withEmb fun m => { m with nvq := m.nvq.upd (d, y) fun v => { v with late := v.late.erase k } }
        else match s1.emb.far.find? fun o => o.k = k ∧ o.outstanding ∧ o.drive = d ∧ o.qp = some y with
        | none => s1
        | some o =>
          let s2 := s1.leavePair o
          if st ≠ 0 then ((s2.farFailed o false st).farWaiting).embPump h
          else
            let at_ := s2.areaAddr (41943040 + 4096 * k)
            let s2 := if o.kind = .read then s2.meetExt 0 at_ 4096 else s2
            match (if o.kind = .read then s2.devRead 0 at_ 4096 else .ok []) with
            | .error (.held _) => s
            | .error (.poison l) => (((s2.radd32 .poisonReads (chanOf (l * 64)) 0 1).farFailed o false 0).farWaiting).embPump h
            | .error _ => ((s2.farFailed o false 0).farWaiting).embPump h
            | .ok bs => ((s2.farDone o bs).farWaiting).embPump h

/-! ### The sketch and the threshold loop (R166, R168) -/

/-- SKETCH_DECAY (R166): after 2^(DECAY+1) boundaries a partition's counters, and the use counts of promoted blocks of its
tenants (R171), are halved. -/
def State.sketchDecay (s : State) (p : Nat) : State :=
  let n := 2 ^ (s.rfld .rcAdmit 29 3 p + 1)
  if s.emb.decay.get p < n then s
  else s.withEmb fun e =>
    { e with
      decay := e.decay.upd p (· - n)
      sketch := e.sketch.mapV fun k v => if k.1 = p then v / 2 else v
      tabs := e.tabs.mapV fun k sh => if s.tenPart k.1 = some p then
        sh.map fun x => { x with dir := x.dir.mapV fun _ d => { d with use := d.use / 2 } } else sh }

/-- The threshold loop of a partition at a boundary (R168). -/
def State.thetaLoop (s : State) (p : Nat) : State :=
  let a := s.emb.admitted.get p
  let s1 := s.withEmb fun e => { e with admitted := e.admitted.set p 0, decay := e.decay.upd p (· + 1) }
  if s.rbit .rcAdmit 28 p then s1
  else
    let lo := max 1 (s.rfld .rcAdmit 0 8 p)
    let hi := max lo (s.rfld .rcAdmit 8 8 p)
    let t := s.rfld .rcAdmit 16 12 p * s.cacheBytes p / 4096
    let th := s.rfld .rcTheta 0 8 p
    if t < a then s1.rput .rcTheta p 0 (min (th + 1) hi)
    else if 2 * a < t then s1.rput .rcTheta p 0 (max (th - 1) lo)
    else s1

/-! ### Placement (R174, R175) -/

/-- Channels of a shard's mask. -/
def Desc.channels (d : Desc) : List Nat := maskChans d.chans

/-- A free sub-page on a channel, of the shard's home pages or its promotion pool, that no move is to fill (R174). -/
def Shard.freeSub (sh : Shard) (c : Nat) (taken : List Nat) : Option Nat :=
  ((sh.home.zipIdx.filter fun e => e.1 / 768 = c).map fun e => (List.range 512).filterMap fun i =>
    let b := e.2 * 512 + i
    let l := e.1 * 512 + i
    if (sh.d.t1 ≤ b ∨ (sh.dir.get b).loc ≠ none) ∧ sh.dir.ents.all (fun q => q.2.loc ≠ some l) ∧ !taken.contains l then some l
    else none).flatten.head?.orElse fun _ =>
  ((subPages (sh.promo.filter fun p => p / 768 = c)).find? fun l => sh.dir.ents.all (fun q => q.2.loc ≠ some l) && !taken.contains l)

/-- The moves a shard needs to channel `cold` by the counts of the ended window, hottest blocks first, no more than bring the two
channels level. -/
def Shard.planMoves (sh : Shard) (cold t h : Nat) (dsts : List Nat) (busy : Nat → Bool) : List Move :=
  let blocks := sh.lastBlk.ents.filter fun e =>
    match sh.loc e.1 with
    | some l => chanOf (4096 * l) == sh.hot && !(sh.dir.get e.1).dirty && !(sh.dir.get e.1).migrating && !busy e.1
    | none => false
  let order := blocks.mergeSort fun a b => decide (b.2 ≤ a.2)
  let gap := (sh.lastChan.get sh.hot - sh.lastChan.get cold) / 2
  (order.foldl (fun (acc : List Move × Nat × List Nat) e =>
    match sh.loc e.1, sh.freeSub cold acc.2.2 with
    | some l, some dst =>
      if acc.2.1 + e.2 ≤ gap ∧ e.2 ≠ 0 then (acc.1 ++ [⟨0, t, h, e.1, l, dst, 0, 0⟩], acc.2.1 + e.2, dst :: acc.2.2) else acc
    | _, _ => acc) ([], 0, dsts)).1

/-- Starts planned moves within MAX_BLOCKS per period and the migration account; each is charged 2 units (R174). -/
def State.startMoves : (fuel : Nat) → State → State
  | 0, s => s
  | n + 1, s =>
    match s.emb.plan with
    | [] => s
    | m :: rest =>
      if s.rfld .embPlace 8 12 ≤ s.emb.moved ∨ s.rbit .embPlace 24 then s
      else if !s.pass [.bg 1] 8192 then s.waitOn [.bg 1] 8192 0xFF none
      else match s.table? m.ten m.tab with
        | none => State.startMoves n (s.withEmb fun e => { e with plan := rest })
        | some sh =>
          -- the block is still where it was, clean, and in no write-back or move
          let d := sh.dir.get m.blk
          if sh.loc m.blk ≠ some m.src ∨ d.dirty ∨ d.migrating ∨ s.writing m.ten m.tab m.blk then
            State.startMoves n (s.withEmb fun e => { e with plan := rest })
          else
          let k := s.emb.nextK
          let s1 := (s.charge (.bg 1) 8192).withEmb fun e =>
            { e with plan := rest, nextK := k + 1, moved := e.moved + 1
                     moves := e.moves ++ [{ m with k := k, version := (sh.dir.get m.blk).version, copies := 1 }] }
          State.startMoves n (s1.updDir m.ten m.tab m.blk fun d => { d with migrating := true })

/-- S of an ended window, as stored and as compared with the trigger (R174).  A window without tier T1 reads has no S: it is free. -/
def State.skewOf (s : State) (top sum n : Nat) : W32 × Bool × State :=
  if sum = 0 then
    let (v, t) := s.free
    let z := w32 v.toNat
    (z, (ofInt (64 + s.rfld .embPlace 0 8 : Nat)).lt ((f32 z).mul (ofInt 64)), t)
  else
    (toF32 ((ofInt (top * n : Nat)).div (ofInt (sum : Nat))), decide (sum * (64 + s.rfld .embPlace 0 8) < top * n * 64), s)

/-- One shard at the end of a window (R173, R174): its counts move on; of a shard that may be balanced S is taken, and moves are planned. -/
def State.windowShard (s : State) (key : Nat × Nat) (sh0 : Shard) : State :=
  let cs := sh0.d.channels
  if !sh0.d.migrate || decide (cs.length < 2) then
    s.updTab key.1 key.2 fun q => { q with lastChan := q.chan, chan := .of 0, lastBlk := q.blk, blk := .of 0, peer := .of 0 }
  else
    let sum := cs.foldl (fun n c => n + sh0.chan.get c) 0
    let hot := cs.foldl (fun m c => if sh0.chan.get m < sh0.chan.get c then c else m) (cs.headD 0)
    let top := sh0.chan.get hot
    let (skew, over_, s0) := s.skewOf top sum cs.length
    let dsts := (s.emb.moves.filter fun m => m.ten = key.1 ∧ m.tab = key.2).map (·.dst)
    let free := cs.filter fun c => c ≠ hot ∧ (sh0.freeSub c dsts).isSome
    let least (l : List Nat) : Nat := l.foldl (fun m c => if sh0.chan.get c < sh0.chan.get m then c else m) (l.headD hot)
    let sh := { sh0 with lastChan := sh0.chan, chan := .of 0, lastBlk := sh0.blk, blk := .of 0, peer := .of 0, skew := skew, hot := hot
                         cold := least cs }
    let s1 := s0.updTab key.1 key.2 fun _ => sh
    let left := s.emb.plan.any fun m => m.ten == key.1 && m.tab == key.2
    let s2 := s1.withEmb fun e => { e with plan := e.plan.filter fun m => !(m.ten = key.1 ∧ m.tab = key.2) }
    if !over_ then s2
    else
      let s3 := if left then
          s2.event 0 { code := 0x0803, island := 29, d0 := key.2 + hot * 65536, d1 := skew.toNat, d2 := key.1 }
        else s2
      if s.rbit .embPlace 24 || free.isEmpty then s3
      else s3.withEmb fun e => { e with plan := e.plan ++ sh.planMoves (least free) key.1 key.2 dsts (s.writing key.1 key.2) }

/-- PLACEMENT_WINDOW_END (R174). -/
def State.placementWindowEnd (s : State) : State :=
  if !s.emb.winDue then s
  else
    let s1 := s.withEmb fun e => { e with winDue := false }
    let s2 := s.emb.tabs.ents.foldl (fun t e => match e.2 with
      | some sh => if sh.defining.isSome then t else t.windowShard e.1 sh
      | none => t) s1
    State.startMoves 4096 s2

/-- One line of a block is copied: a poisoned line, or one of a FAULTED channel, is read as poison and poisons its copy (R224, R225).
MEM_POISON has no cause for a copy: that byte is free (assumption log 3). -/
def State.moveLine (s : State) (src dst i : Nat) : State :=
  let a := 64 * src + i
  let b := 64 * dst + i
  if s.linePoison a then
    let (v, t) := (s.radd32 .poisonReads (chanOf (64 * a)) 0 1).free
    t.poisonLine b (v.toNat % 256)
  else match s.lineWrite (64 * b) (memGets s.mem.bytes (64 * a) 64) with
    | .ok t => t
    | .error _ => s

/-- BLOCK_MOVE_COPY_DONE (R175): the directory switches if the version is unchanged; otherwise the copy repeats, and after the
third the move is abandoned. -/
def State.blockMoveCopyDone (s : State) (k : Nat) : State :=
  match s.emb.moves.find? fun m => m.k = k with
  | none => s
  | some m =>
    let drop (t : State) : State := t.withEmb fun e => { e with moves := e.moves.filter fun q => q.k ≠ k }
    match s.table? m.ten m.tab with
    | none => drop s
    | some sh =>
      let d := sh.dir.get m.blk
      -- a copy whose lines wait goes on later (R17, R219)
      if (List.range 64).any fun i => (s.heldCause (64 * m.src + i)).isSome || (s.heldCause (64 * m.dst + i)).isSome then s
      else if d.version = m.version then
        let s1 := (List.range 64).foldl (fun t i => t.moveLine m.src m.dst i) (s.meetPhys (4096 * m.src) 4096)
        ((drop s1).updDir m.ten m.tab m.blk fun q => { q with loc := some m.dst, migrating := false }).stat m.ten m.tab 9 1
      else if 3 ≤ m.copies ∨ d.dirty then
        ((drop s).updDir m.ten m.tab m.blk fun q => { q with migrating := false }).stat m.ten m.tab 10 1
      else s.withEmb fun e => { e with moves := e.moves.map fun q => if q.k = k then { q with copies := q.copies + 1, version := d.version } else q }

/-- REPLICA_EXPIRY (R200): every replica not validated for 100 ms is discarded. -/
def State.replicaExpiry (s : State) : State :=
  s.withEmb fun e => { e with replicas := e.replicas.filter fun r => decide (ticks r.validated s.now < 100000000) }

/-- What a boundary does for the tables: the threshold loops, and the counts of the window and of the period (R168, R174, R176). -/
def State.embBoundary (s : State) : State :=
  let s1 := (List.range 16).foldl State.thetaLoop s
  let n := s.emb.winCnt + 1
  let due := decide (2 ^ s.rfld .embPlace 20 4 ≤ n)
  (State.startMoves 4096 (s1.withEmb fun e =>
    { e with moved := 0, granted := 0, winCnt := if due then 0 else n, winDue := e.winDue || due })).farWaiting

end Sys2Proof.Machine
end

