-- ==== Sys2Proof/Machine/MemErr.lean ====
section
/-! DEFINITION. Stacked memory's errors: parity retry, lane repair, the symbol code, poison, scrubbing, thermal bands; and
the commands MEM_ZERO and MEM_COPY (R217 to R230). -/

namespace Sys2Proof.Machine

/-! ### Parity retry (R218 to R221, R225) -/

/-- Lines of a channel on its poison list. -/
def State.listed (s : State) (c : Nat) : Nat := (s.mem.plist.filter fun l => chanOf (l * 64) = c).length

/-- A line becomes one of its channel's poison list, or a full list faults the channel (R225). -/
def State.listLine (s : State) (line : Nat) : State :=
  let c := chanOf (line * 64)
  let s1 := (((s.radd32 .retryExh c 0 1).memError line 2).logMem line 5 0).markSub line
  if s1.rbit .chanState 16 c || s1.mem.plist.contains line then s1
  else if 1024 ≤ s1.listed c then ((s1.rsetFld .chanState 16 1 1 c).memError line 5).logMem line 5 0
  else
    let s2 := if s1.linePoison line then s1 else s1.poisonEvent line 2
    s2.withMem fun m => { m with plist := line :: m.plist, poison := m.poison.filter (fun l => l != line) }

/-- An exhausted write: its line is listed, and the command that wrote is handed to the fault policy (R220). -/
def State.writeExhausted (s : State) (line : Nat) (who : Option CtxId) : State :=
  let s1 := s.listLine line
  match who.bind s1.ctx? with
  | some x => if x.phase = .running then s1.toPolicy x.id 5 (16 + chanOf (line * 64) / 8) 0 x.sliceNo else s1
  | none => s1

/-- Accesses that waited for a line, a channel or an island go on: event records first, in the order of their events, then completion records
(R219, R220, R221). -/
def State.unheld (s : State) : State :=
  s.evFlush.cp.queues.ents.foldl (fun t e => if (t.qCtxs e.1).any fun x => x.phase = .done then State.drain 65 t e.1 else t) s.evFlush

/-- An exhausted read: the line is delivered poisoned, and later reads see poison until a whole-line write (R220).  MEM_POISON
has no cause for it: that byte is free. -/
def State.readExhausted (s : State) (line : Nat) (who : Option CtxId) : State :=
  let c := chanOf (line * 64)
  let s1 := ((s.radd32 .retryExh c 0 1).memError line 1).logMem line 5 0
  let (v, s2) := s1.free
  let s3 := s2.poisonLine line (v.toNat % 256)
  match who with
  | none => s3
  | some id => match s3.ctx? id with
    | some x => if x.phase = .running then s3.poisoned x line x.sliceNo else s3
    | none => s3

/-- One parity failure counted against its lane group; at the threshold of the period the channel is quiesced for repair, or
the lack of a spare reported (R221). -/
def State.laneFailure (s : State) (line lane : Nat) : State :=
  let c := chanOf (line * 64)
  let m := c / 8
  let n := s.mem.laneFail.get (c, lane) + 1
  let s1 := s.withMem fun x => { x with laneFail := x.laneFail.set (c, lane) n }
  if n ≠ max 1 (s.rfld .ifPolicy 8 8 m) ∨ s.mem.quiesce.contains c then s1
  else if !s.rbit .ifPolicy 3 m then s1.logMem line 5 8
  else if s.rfld .chanState 11 5 c = 0 then (s1.memError line 7).logMem line 5 0
  else s1.withMem fun x => { x with quiesce := c :: x.quiesce }

/-- MEM_PARITY_RETRY (R219, R220): one attempt at a line access that meets parity.  `ok = false` is a failure: the first of an
access opens its retries, each is counted, and the last exhausts them; `ok = true` ends the retries of the line.  While they last, no other
access to the line is performed (`State.heldCause`). -/
def State.parityRetry (s : State) (line lane : Nat) (write ok : Bool) (who : Option CtxId) : State :=
  let c := chanOf (line * 64)
  let open_ := s.mem.retry.find? fun r => r.line = line
  let close (t : State) : State := t.withMem fun m => { m with retry := m.retry.filter fun r => r.line ≠ line }
  if ok then (close s).unheld
  else
    let s1 := (s.radd32 .parErr c 0 1).laneFailure line lane
    let left := match open_ with
      | some r => r.left
      | none => s.rfld .ifPolicy 0 3 (c / 8)
    let wr := match open_ with
      | some r => r.write
      | none => write
    if left = 0 then
      (if wr then (close s1).writeExhausted line who else (close s1).readExhausted line who).unheld
    else ((close s1).radd32 .retries c 0 1).withMem fun m => { m with retry := ⟨line, left - 1, wr⟩ :: m.retry }

/-- LANE_REPAIR_DONE (R221): the lane is mapped onto a spare, and accesses to the channel resume. -/
def State.laneRepairDone (s : State) (c : Nat) : State :=
  if !s.mem.quiesce.contains c then s
  else
    let s1 := (s.withMem fun m => { m with quiesce := m.quiesce.filter (· ≠ c) }).rsetFld .chanState 11 5
      (s.rfld .chanState 11 5 c - 1) c
    ((s1.chanError c 6).logFault { cls := 5, island := 16 + c / 8, action := 0, loc := c }).unheld

/-! ### Scrubbing (R226) -/

/-- Lines of a channel. -/
def chanLines : Nat := 768 * 32768

/-- The first line from `p` on, in the channel's order, whose page is in service; at most 768 pages are passed over. -/
def State.inService (s : State) (c : Nat) : (fuel : Nat) → (p : Nat) → Nat
  | 0, p => p
  | k + 1, p =>
    if (s.mem.pages.get (c * 768 + p / 32768)).st = .retired then State.inService s c k ((p / 32768 + 1) * 32768 % chanLines)
    else p

/-- SCRUB_READ (R226): the next line of the channel is read, and what the symbol code finds is handled.  A line under a retry waits. -/
def State.scrubRead (s0 : State) (c : Nat) (es : List Hit) : State :=
  let m := c / 8
  let s := s0.strike es
  if !s.rbit .scrub 16 m || decide (s.rfld .scrub 0 16 m ≤ s.mem.scrubCnt.get c) then s
  else
    let p0 := s.mem.scrubPos.get c
    let p := s.inService c 768 p0
    let wrap := decide (p < p0) || decide (p + 1 = chanLines)
    if (s.heldCause (chanLines * c + p)).isSome then s
    else
    let s1 := (s.meetLine (chanLines * c + p)).withMem fun x =>
      { x with
        scrubPos := x.scrubPos.set c ((p + 1) % chanLines)
        scrubCnt := x.scrubCnt.upd c (· + 1) }
    if wrap then s1.radd32 .scrubPasses c 0 1 else s1

/-! ### Temperature (R229, R230) -/

/-- Lower bound in °C of a band of Table 10.7. -/
def bandLow (b : Nat) : Nat := if b = 1 then 85 else if b = 2 then 95 else if b = 3 then 105 else 0

/-- The band a temperature reaches. -/
def bandOf (t : Nat) : Nat := if 105 ≤ t then 3 else if 95 ≤ t then 2 else if 85 ≤ t then 1 else 0

/-- A band left downward only at 3 °C below its lower bound (R229). -/
def bandDown (t : Nat) : Nat → Nat
  | 0 => 0
  | b + 1 => if t + 3 ≤ bandLow (b + 1) then bandDown t b else b + 1

/-- The band after a reading. -/
def bandNext (b t : Nat) : Nat := if b ≤ bandOf t then bandOf t else bandDown t b

/-- One channel's reading at a period boundary: the hottest layer and its temperature (R229). -/
def State.chanTemp (s : State) (r : ChanTemp) : State :=
  let c := r.chan % 64
  let t := r.deg % 256
  let b := s.rfld .temp 8 3 c
  let b' := bandNext b t
  let s1 := s.rput .temp c 0 (t + b' * 256 + r.layer % 8 * 2048)
  let s2 := if s.rnat .tempMax c < t then s1.rput .tempMax c 0 t else s1
  if b = b' then s2
  else s2.event 0 { code := 0x1003, island := 16 + c / 8, d0 := c + b' * 256, d1 := t, d2 := r.layer % 8 }

/-- What a period boundary does in stacked memory: readings, lane failure counts and the scrubber's budget (R221, R226, R229). -/
def State.memBoundary (s : State) (ts : List ChanTemp) : State :=
  (ts.foldl State.chanTemp s).withMem fun m => { m with laneFail := .of 0, scrubCnt := .of 0 }

/-- A channel requests a throttle of the cell above it (R230). -/
def State.thermReq (s : State) (c : Nat) : Bool := s.rfld .temp 8 3 c == 3 && s.rbit .ifPolicy 7 (c / 8)

/-! ### MEM_ZERO and MEM_COPY (R217) -/

/-- MEM_ZERO begins: slices of 4 KiB units on the zero engine of the island that holds ADDR. -/
def State.memZeroBegin (s : State) (x : Ctx) : State :=
  s.beginUnits x (.memZero (pageIsland (s.phys x.fn (offOf (x.a 4)) / pageSize))) (fld (x.w 6) 0 25)

/-- MEM_COPY begins: slices of 64-byte lines on the copy engine of the island that holds its source, or its destination. -/
def State.memCopyBegin (s : State) (x : Ctx) : State :=
  s.beginUnits x (s.copyEngine x.fn (if isDev (x.a 4) then x.a 4 else x.a 6)) (x.w 8)

/-- How a sliced command's unit went: done, waiting for an account, or failed at an operand word. -/
inductive UnitRes where
  | done (s : State)
  | wait (s : State)
  | fail (s : State) (word : Nat) (e : Fail)
deriving Repr

/-- A unit of a slice as one request: charged and done, or waiting (R79, R81). -/
def State.unitGate (s : State) (x : Ctx) (n : Nat) (k : State → UnitRes) : UnitRes :=
  match s.pay x n with
  | (t, true) => k t
  | (t, false) => .wait t

/-- Unit `k` of MEM_ZERO. -/
def State.memZeroUnit (s : State) (x : Ctx) (k : Nat) : UnitRes :=
  s.unitGate x 4096 fun t =>
    match t.devZero x.fn (offOf (x.a 4) + 4096 * k) 4096 with
    | (u, none) => .done u
    | (u, some e) => .fail u 4 e

/-- Unit `k` of MEM_COPY. -/
def State.memCopyUnit (s : State) (x : Ctx) (h : HostData) (k : Nat) : UnitRes :=
  s.unitGate x (64 * b01 (isDev (x.a 4)) + 64 * b01 (isDev (x.a 6))) fun t =>
    let t := t.meetOp x.fn (addrAdd (x.a 4) (64 * k)) 64
    match t.opRead x.fn h (addrAdd (x.a 4) (64 * k)) 64 with
    | .error e => .fail t 4 e
    | .ok bs => match t.opWrite x.fn (addrAdd (x.a 6) (64 * k)) bs with
      | (u, none) => .done u
      | (u, some e) => .fail u 6 e

end Sys2Proof.Machine
end

