-- ==== Sys2Proof/Machine/Seq.lean ====
section
/-! DEFINITION. Sequence state: families, SEQ_CHUNK, SEQ_TOUCH, SEQ_RETIRE, and the paging of stream slots (R241 to R255). -/

namespace Sys2Proof.Machine

/-! ### Families (R241) -/

/-- The descriptor of Table 11.7. -/
def FamDesc.parse (b : List W8) : FamDesc :=
  { h := natAt b 0 2, p := natAt b 2 1, paging := fld (natAt b 3 1) 0 2, streams := natAt b 4 4, handle := fld (natAt b 8 2) 0 10
    offset := natAt b 12 4, poolPages := natAt b 16 2, freeTarget := natAt b 18 2, base := w64 (natAt b 24 8), chans := w64 (natAt b 32 8) }

/-- Reserved bits of a family descriptor, as a number of its bytes. -/
def famReserved : Nat :=
  63 * 2 ^ 26 + 63 * 2 ^ 74 + 0xFFFF * 2 ^ 80 + (2 ^ 32 - 1) * 2 ^ 160 + (2 ^ 192 - 1) * 2 ^ 320

/-- The value rules of a family descriptor (R241). -/
def FamDesc.ok (d : FamDesc) : Bool :=
  decide (1 ≤ d.h) && decide (d.h ≤ 2048) && decide (1 ≤ d.p) && decide (d.p ≤ 64) && decide (d.paging ≤ 2) &&
  decide (1 ≤ d.streams) && decide (d.streams ≤ 4194304) && d.offset % 64 == 0 && decide (1 ≤ d.poolPages) &&
  decide (d.poolPages ≤ 32768) && decide (d.base.toNat < 2 ^ 63) && d.base.toNat % 4096 == 0 && decide (d.h * d.p ≤ 2048) &&
  ((d.paging != 0 && d.base != 0) || decide (d.streams ≤ d.rn))

/-- A family that exists: its SEQ_DEFINE has completed. -/
def State.fam? (s : State) (t f : Nat) : Option Fam :=
  match s.seq.fams.get (t, f) with
  | some m => if m.defining.isNone then some m else none
  | none => none

/-- A family whose pages are all zero exists from now on. -/
def State.famReady (s : State) (x : Ctx) : State :=
  let f := fld (x.w 2) 0 8
  match s.seq.fams.get (x.ten, f) with
  | none => s
  | some m =>
    (s.updFam x.ten f fun k => { k with defining := none }).finish x.id stDone (w32 (m.pool.length + m.dirPages.length))

/-- Streams of every family the device has, and of one more. -/
def State.famStreams (s : State) (d : FamDesc) : Nat :=
  s.seq.fams.ents.foldl (fun n e => match e.2 with
    | some m => n + m.d.streams
    | none => n) d.streams

/-- SEQ_DEFINE (R241). -/
def State.seqDefine (s : State) (x : Ctx) (h : HostData) : State :=
  let f := fld (x.w 2) 0 8
  s.gate x (stackBytes (x.a 4) 64) fun u =>
    let u := u.meetOp x.fn (x.a 4) 64
    match u.opRead x.fn h (x.a 4) 64 with
    | .error e => u.failCmd x 4 0 e
    | .ok b =>
      let rsv := ofBytes b &&& famReserved
      let d := FamDesc.parse b
      if rsv ≠ 0 then u.finish x.id stBadPacket (badDetail 4 (((List.range 512).find? fun i => bit rsv i).getD 0 % 32) 1)
      else if !d.ok then u.finish x.id stBadPacket (badDetail 4 0 7)
      else if (u.seq.fams.get (x.ten, f)).isSome then u.finish x.id stRefused 1
      else if 4194304 < u.famStreams d then u.finish x.id stNoResource 2
      else
        match u.allocPages x.id (.dev x.ten) (x.part.getD 0) d.chans false (d.poolPages + cdiv (16 * d.streams) 2097152) with
        | .error _ => u.finish x.id stNoResource 0
        | .ok (w, ps) =>
          let m : Fam := { d := d, pool := ps.take d.poolPages, dirPages := ps.drop d.poolPages, defining := some x.id }
          let w1 := w.withSeq fun q => { q with fams := q.fams.set (x.ten, f) (some m) }
          if w1.claimsOf x.id = 0 then w1.famReady x else w1.beginWait x 0 0

/-! ### State records -/

/-- Physical address of a sub-page of a pool entry. -/
def Fam.subAddr (m : Fam) (e j : Nat) : Nat :=
  let k := e * m.d.subs + j
  pageSize * m.pool.getD (k / 512) 0 + 4096 * (k % 512)

/-- The lines of a pool entry meet what is stored in them. -/
def State.recMeet (s : State) (m : Fam) (e : Nat) : State :=
  (List.range m.d.subs).foldl (fun t j => t.meetPhys (m.subAddr e j) 4096) s

/-- Why accesses to a pool entry wait, if they do. -/
def State.recHeld (s : State) (m : Fam) (e : Nat) : Option Nat :=
  (List.range m.d.subs).findSome? fun j => (List.range 64).findSome? fun i => s.heldCause (m.subAddr e j / 64 + i)

/-- A pool entry is read whole. -/
def State.recRead (s : State) (m : Fam) (e : Nat) : Except Fail (List W8) :=
  match mapE (fun j => s.physRead (m.subAddr e j) 4096) (List.range m.d.subs) with
  | .error f => .error f
  | .ok ls => .ok ls.flatten

/-- A pool entry is written whole. -/
def State.recWrite (s : State) (m : Fam) (e : Nat) (bs : List W8) : State :=
  (List.range m.d.subs).foldl (fun t j => (t.physWrite (m.subAddr e j) (sliceB bs (4096 * j) 4096)).1) s

/-- A slot is marked as used (R251). -/
def State.useSlot (s : State) (t f k : Nat) : State :=
  let s1 := s.withSeq fun q => { q with clock := q.clock + 1 }
  s1.updSeqSlot t f k fun z => { z with used := s1.seq.clock }

/-! ### Space and paging (R250 to R253) -/

/-- Free pool entries, in number. -/
def Fam.free (m : Fam) : Nat := m.d.rn - m.taken.length

/-- Slots that may be evicted (R251) and that a test admits, least recently used first. -/
def Fam.evictable (m : Fam) (ok : Nat → SeqSlot → Bool) : List Nat :=
  ((m.slots.ents.filter fun e => (e.2.st = .clean || e.2.st = .dirty) && e.2.pins.isEmpty && e.2.entry.isSome && ok e.1 e.2).mergeSort
    fun a b => decide (a.2.used ≤ b.2.used)).map (·.1)

/-- Gives a slot the lowest free pool entry, if it has none. -/
def Fam.take (m : Fam) (k : Nat) : Fam :=
  if (m.slots.get k).entry.isSome then m
  else match (List.range m.d.rn).find? fun e => !m.taken.contains e with
    | some e => { m with taken := e :: m.taken, slots := m.slots.upd k fun z => { z with entry := some e } }
    | none => m

/-- A new paging operation, not yet issued. -/
def State.addPageOp (s : State) (t f k : Nat) (out : Bool) : State :=
  let o : PageOp :=
    { k := s.freeFar, out := out, part := s.tenPart t, ten := t, fam := f, stream := k, tries := 0, issued := 0, outstanding := false }
  s.withSeq fun q => { q with ops := q.ops ++ [o] }

/-- A slot is evicted: CLEAN becomes OUT at once, DIRTY is paged out first. -/
def State.evictSlot (s : State) (t f k : Nat) : State :=
  match s.fam? t f with
  | none => s
  | some m =>
    if (m.slots.get k).st = .clean then
      s.updFam t f fun n => ({ n with slots := n.slots.upd k fun z => { z with st := .out } }).release k
    else (s.updSeqSlot t f k fun z => { z with st := .pagingOut }).addPageOp t f k true

/-- The state with a paging operation changed. -/
def State.updOp (s : State) (k : Nat) (g : PageOp → PageOp) : State :=
  s.withSeq fun q => { q with ops := q.ops.map fun o => if o.k = k then g o else o }

/-- A paging operation ends, and its far-tier request is freed. -/
def State.endOp (s : State) (k : Nat) : State :=
  (s.withSeq fun q => { q with ops := q.ops.filter fun o => o.k ≠ k }).freedUnits 4

/-- A paging operation has failed after its repeats (R253): reported and logged; a page-in ends the commands that wait for it
with ST_FAULT and its slot is OUT again, a page-out leaves its slot DIRTY. -/
def State.opGiveUp (s : State) (o : PageOp) (timeout : Bool) : State :=
  let s1 := (s.logFault { cls := 8, island := 28, action := if o.out then 0 else 2, tenant := o.ten, part := o.part.getD 0xFF }).event
    (vf o.ten) { code := 0x1102, island := 28, d0 := o.fam + b01 o.out * 256 + b01 timeout * 512, d1 := o.stream, d2 := o.tries }
  let s2 := s1.endOp o.k
  if o.out then s2.updSeqSlot o.ten o.fam o.stream fun z => { z with st := .dirty }
  else
    let s3 := s2.updSeqSlot o.ten o.fam o.stream fun z => { z with st := .out }
    let ids := (s3.seq.chunks.filter fun c => c.ten == o.ten && c.fam == o.fam && c.acquired &&
      c.ents.any fun e => e.1.stream == o.stream && !e.1.reset && e.2 == .open_).map (·.id)
    (ids.foldl (fun t id => (t.releaseCtx id).finish id stFault (w32 o.stream)) s3).updFam o.ten o.fam fun m =>
      if (m.slots.get o.stream).pins = [] then m.release o.stream else m

/-- The stack lines of a paging operation are paid, one request each, as far as the tenant's accounts allow (R79, R81, R250, R252); answers
whether all of them are. -/
def State.payOp (s : State) (o : PageOp) (n : Nat) : State × Bool :=
  let (t, m) := s.payPart (s.tenAccts o.ten 1) 64 (n - o.paid) o.ten o.part
  (if m = 0 then t else t.updOp o.k fun p => { p with paid := p.paid + m }, decide (n ≤ o.paid + m))

/-- A page-out is issued: its record is paid for, read and sent to the host area; a record under a retry waits. -/
def State.outGo (s : State) (o : PageOp) (m : Fam) : State :=
  match s.payOp o m.d.rs with
  | (t, false) => t
  | (t, true) =>
    let e := (m.slots.get o.stream).entry.getD 0
    if (t.recHeld m e).isSome ∨ !t.clockOn 28 then t
    else
      let u := t.recMeet m e
      match u.recRead m e with
      | .error _ => u.opGiveUp { o with tries := o.tries + 1 } false
      | .ok bs => (u.send (.hostWrite (vf o.ten) (m.d.base.toNat + o.stream * m.d.rs) bs)).updOp o.k fun p =>
        { p with tries := p.tries + 1, issued := s.now, outstanding := true, paid := 0 }

/-- Issues a paging operation if it can go, or counts failed attempts and repeats them (R172, R253). -/
def State.opGo : (fuel : Nat) → State → (k : Nat) → State
  | 0, s, _ => s
  | n + 1, s, k =>
    match s.seq.ops.find? fun o => o.k = k with
    | none => s
    | some o =>
      if o.outstanding ∨ s.farAvail o.part = 0 then s
      else match s.fam? o.ten o.fam with
        | none => s.endOp k
        | some m =>
          if !s.hostUp (vf o.ten) then
            let s1 := s.logPcie.updOp k fun p => { p with tries := p.tries + 1 }
            if s.farRetry o.part ≤ o.tries then s1.opGiveUp { o with tries := o.tries + 1 } false else State.opGo n s1 k
          else if o.out then s.outGo o m
          else s.updOp k fun p => { p with tries := p.tries + 1, issued := s.now, outstanding := true }

/-- A record that has come from the host enters the pool, once its lines are paid for and none of them waits (R79, R250): the slot is CLEAN. -/
def State.pageInGo (s : State) (k : Nat) : State :=
  match s.seq.ops.find? fun o => o.k = k ∧ o.data.isSome with
  | none => s
  | some o =>
    match s.fam? o.ten o.fam with
    | none => s.endOp k
    | some m =>
      match s.payOp o m.d.rs with
      | (t, false) => t
      | (t, true) =>
        let e := (m.slots.get o.stream).entry.getD 0
        if (t.recHeld m e).isSome then t
        else
          let u := t.recWrite m e (sliceB (o.data.getD []) 0 m.d.rs)
          ((u.radd32 .seqPageIns o.ten 0 1).updSeqSlot o.ten o.fam o.stream fun z => { z with st := .clean }).endOp k

/-- An issued attempt of a paging operation failed: repeat, or give up. -/
def State.opFailed (s : State) (o : PageOp) (timeout : Bool) : State :=
  let s1 := s.updOp o.k fun p => { p with outstanding := false, paid := 0 }
  if o.tries ≤ s.farRetry o.part then State.opGo 9 s1 o.k else s1.opGiveUp o timeout

/-- SEQ_TOUCHes whose page-ins have all finished complete (R246). -/
def State.touchPump (s : State) : State :=
  s.seq.touches.foldl (fun t w =>
    if !w.begun || t.seq.ops.any fun o => !o.out && o.ten == w.ten && o.fam == w.fam && w.streams.contains o.stream then t
    else t.finish w.id stDone (w32 w.n)) s

/-- Background page-outs of a family with PAGING = 2 (R252); page-outs in progress count as done. -/
def State.bgPageOut (s : State) (t f : Nat) : State :=
  match s.fam? t f with
  | none => s
  | some m =>
    if m.d.paging ≠ 2 ∨ m.retiring.isSome then s
    else
      let ready := m.free + (m.evictable fun _ z => z.st == .clean).length + (m.slots.ents.filter fun e => e.2.st = .pagingOut ∧ e.2.pins = []).length
      ((m.evictable fun _ z => z.st == .dirty).take (m.d.freeTarget - ready)).foldl (fun u k => u.evictSlot t f k) s

/-- What can go on in the paging of slots: background page-outs, operations that wait, touches (R252, R253). -/
def State.seqPump (s : State) : State :=
  let s1 := s.seq.fams.ents.foldl (fun t e => t.bgPageOut e.1.1 e.1.2) s
  (s1.seq.ops.foldl (fun t o => (State.opGo 9 t o.k).pageInGo o.k) s1).touchPump

/-- SLOT_PAGE_IN_DONE (R250, R253): the record has come, or the read failed. -/
def State.pageInDone (s : State) (k : Nat) (data : Option (List W8)) : State :=
  match s.seq.ops.find? fun o => o.k = k ∧ o.outstanding ∧ !o.out ∧ o.data.isNone with
  | none => s
  | some o =>
    match data with
    | some bs => (s.updOp k fun p => { p with data := some bs }).seqPump
    | none => (s.logPcie.opFailed o false).seqPump

/-- SLOT_PAGE_OUT_DONE (R252, R255): the slot is OUT, or CLEAN if it was pinned meanwhile. -/
def State.pageOutDone (s : State) (k : Nat) (ok : Bool) : State :=
  match s.seq.ops.find? fun o => o.k = k ∧ o.outstanding ∧ o.out with
  | none => s
  | some o =>
    if !ok then (s.logPcie.opFailed o false).seqPump
    else
      let s1 := (s.radd32 .seqPageOuts o.ten 0 1).updFam o.ten o.fam fun m =>
        if (m.slots.get o.stream).pins ≠ [] then { m with slots := m.slots.upd o.stream fun z => { z with st := .clean } }
        else ({ m with slots := m.slots.upd o.stream fun z => { z with st := .out } }).release o.stream
      (s1.endOp k).seqPump

/-- FAR_TIMEOUT of a paging operation (R172, R253). -/
def State.opTimedOut (s : State) (k : Nat) : State :=
  match s.seq.ops.find? fun o => o.k = k ∧ o.outstanding ∧ o.data.isNone with
  | none => s
  | some o => if s.farTimeout o.part ≤ ticks o.issued s.now then (s.opFailed o true).seqPump else s

/-! ### SEQ_CHUNK (R243 to R245, R249, R250) -/

namespace Chunk
/-- FAMILY, IFMT, OFMT, ENTRIES, T and GROUP of a packet (Table 11.8), and the pitches of its blocks (R243). -/
def famOf (x : Ctx) : Nat := fld (x.w 2) 0 8
def ifmt (x : Ctx) : Nat := fld (x.w 2) 8 4
def ofmt (x : Ctx) : Nat := fld (x.w 2) 12 4
def entries (x : Ctx) : Nat := fld (x.w 3) 0 16
def len (x : Ctx) : Nat := fld (x.w 3) 16 16
def group (x : Ctx) : Nat := fld (x.w 10) 0 16
def xPitch (x : Ctx) (d : FamDesc) : Nat := cdiv (len x * d.h * (fmtBits (ifmt x) / 8)) 64 * 64
def yPitch (x : Ctx) (d : FamDesc) : Nat := cdiv (len x * d.h * (fmtBits (ofmt x) / 8)) 64 * 64
end Chunk

/-- An entry of Table 11.9. -/
def SeqEnt.parse (v : Nat) : SeqEnt := ⟨fld v 0 32, w32 (fld v 32 32), fld v 64 16, bit v 80⟩

/-- A SEQ_CHUNK's entries are well formed, distinct, and its tiles fit the staging area (R244, item 2). -/
def entsOk (x : Ctx) (d : FamDesc) (vs : List Nat) : Bool :=
  let es := vs.map SeqEnt.parse
  vs.all (fun v => v / 2 ^ 81 == 0) &&
  es.all (fun e => decide (e.stream < d.streams) && decide (1 ≤ e.len) && decide (e.len ≤ Chunk.len x)) &&
  decide (es.map (·.stream)).Nodup &&
  decide (min (Chunk.group x) (Chunk.entries x) * (Chunk.len x * d.h * (fmtBits (Chunk.ofmt x) / 8) + 8 * d.h * d.p) ≤ 262144)

/-- An entry claims its slot (R249). -/
def Fam.claims (m : Fam) (e : SeqEnt) : Bool := (m.slots.get e.stream).claim == e.seq || (e.reset && e.seq == 0)

/-- An entry counts against RN (R244, item 4). -/
def Fam.needs (m : Fam) (e : SeqEnt) : Bool :=
  let z := m.slots.get e.stream
  z.st == .unused || z.st == .out || e.reset

/-- The check of a SEQ_CHUNK after those of R44 (R244): its entries are read, checked, and claim together (R249). -/
def State.seqCheck (s : State) (x : Ctx) (h : HostData) : State :=
  let f := Chunk.famOf x
  let n := Chunk.entries x
  match s.fam? x.ten f with
  | none => s.finish x.id stBadPacket (badDetail 2 0 7)
  | some m =>
    s.gate x (stackBytes (x.a 4) (16 * n)) fun u =>
      let u := u.meetOp x.fn (x.a 4) (16 * n)
      match u.opRead x.fn h (x.a 4) (16 * n) with
      | .error e => u.failCmd x 4 0 e
      | .ok b =>
        let vs := (List.range n).map fun i => natAt b (16 * i) 16
        let es := vs.map SeqEnt.parse
        if !entsOk x m.d vs then u.finish x.id stBadPacket (badDetail 4 0 7)
        else match es.findIdx? fun e => !m.claims e with
          | some i => (u.radd32 .seqOrder x.ten 0 n).finish x.id stOrder (w32 (i % 65536))
          | none =>
            if m.d.rn < (es.filter m.needs).length then u.finish x.id stNoResource 1
            else match u.check89 x.fn [⟨6, x.a 6, n * Chunk.xPitch x m.d⟩, ⟨8, x.a 8, n * Chunk.yPitch x m.d⟩] with
              | some (st, d) => u.finish x.id st d
              | none =>
                let u1 := u.withSeq fun q =>
                  { q with chunks := q.chunks ++ [⟨x.id, x.ten, f, x.part, es.map fun e => (e, .open_), false, 0⟩] }
                es.foldl (fun t e => (t.updSeqSlot x.ten f e.stream fun z =>
                  { z with claim := e.seq + 1, claims := z.claims ++ [x.id] }).useSlot x.ten f e.stream) u1

/-- SEQ_SLOT_ACQUIRE (R250, R251): the first SEQ_CHUNK of its family that waits for space takes it when it exists for all of its
entries; until then the least recently used evictable slots are evicted for it. -/
def State.seqAcquire (s : State) (id : CtxId) : State :=
  match s.chunk? id with
  | none => s
  | some c =>
    match s.fam? c.ten c.fam with
    | none => s
    | some m =>
      let first := s.seq.chunks.find? fun k => k.ten = c.ten ∧ k.fam = c.fam ∧ !k.acquired
      if c.acquired ∨ first.map (·.id) ≠ some id then s
      else
        let need := (c.ents.filter fun e => (m.slots.get e.1.stream).entry.isNone).map (·.1.stream)
        let keep (k : Nat) : Bool := c.ents.any fun e => e.1.stream == k
        let leaving := (m.slots.ents.filter fun e => e.2.st = .pagingOut ∧ e.2.pins = []).length
        let short := need.length - m.free - leaving
        let s1 := if m.d.paging = 0 then s
          else ((m.evictable fun k _ => !keep k).take short).foldl (fun t k => t.evictSlot c.ten c.fam k) s
        match s1.fam? c.ten c.fam with
        | none => s1
        | some m1 =>
          if m1.free < need.length then s1.seqPump
          else
            let ins := (c.ents.filter fun e =>
              (m1.slots.get e.1.stream).st = .out && (m1.slots.get e.1.stream).entry.isNone && !e.1.reset).map (·.1.stream)
            let s2 := s1.updFam c.ten c.fam fun k =>
              let k1 := need.foldl Fam.take k
              { k1 with slots := c.ents.foldl (fun sl e => sl.upd e.1.stream fun z =>
                  { z with pins := z.pins ++ [id], st := if ins.contains e.1.stream then .pagingIn else z.st }) k1.slots }
            let s3 := s2.withSeq fun q => { q with chunks := q.chunks.map fun k =>
              if k.id = id then { k with acquired := true, pageIns := ins.length } else k }
            (ins.foldl (fun t k => t.addPageOp c.ten c.fam k false) s3).seqPump

/-- A SEQ_CHUNK may be dispatched (R250): its slots are acquired and at rest, each with its record, or with the space it starts from zero in,
and every earlier claim on them has resolved. -/
def State.seqReady (s : State) (id : CtxId) : Bool :=
  match s.chunk? id with
  | none => false
  | some c =>
    match s.fam? c.ten c.fam with
    | none => false
    | some m =>
      c.acquired && c.ents.all fun e =>
        let z := m.slots.get e.1.stream
        z.st != .pagingIn && z.st != .pagingOut && z.entry.isSome && z.claims.head? == some id

/-- The model a SEQ_CHUNK runs with is used once more (R59). -/
def State.useModel (s : State) (t h : Nat) : State :=
  s.withToy fun y => { y with models := y.models.upd (t, h) (Option.map fun m => { m with use := sat 65535 (m.use + 1), lastRef := s.now }) }

/-- A dispatched SEQ_CHUNK begins: the parameters lie in its model, which is loaded if it must be (R60, R244); then tiles. -/
def State.seqBegin (s : State) (x : Ctx) : State :=
  match s.fam? x.ten (Chunk.famOf x) with
  | none => s.finish x.id stBadPacket (badDetail 2 0 7)
  | some m =>
    if x.work ≠ .none then s
    else match s.modelState x m.d.handle with
      | .wait => s
      | .absent => s.autoload x m.d.handle
      | .ready mod =>
        if mod.size < m.d.offset + 16 * m.d.h * m.d.p + 4 * m.d.h then s.finish x.id stRange 2
        else (s.useModel x.ten m.d.handle).updCtx x.id fun y =>
          { y with
            phase := .running, begunAt := s.now
            work := .tiles (cdiv (Chunk.entries x) (Chunk.group x)) 0 [] false }

/-! ### The recurrence (R242) -/

/-- One event of one channel over its modes: the new modes and y. -/
def seqMode (lam c : List (W32 × W32)) (x : W32) (dx : W32) : List (W32 × W32) → (List (W32 × W32)) × W32
  | st =>
    ((st.zip (lam.zip c)).foldl (fun (acc : List (W32 × W32) × W32) e =>
      let (sr, si) := e.1
      let (lr, li) := e.2.1
      let (cr, ci) := e.2.2
      let m2 (a b : W32) : Fv := (f32 a).mul (f32 b)
      let u := toF32 ((m2 lr sr).add (m2 li si).neg)
      let v := toF32 ((m2 lr si).add (m2 li sr))
      let sr' := addF u x
      let y := addF acc.2 (toF32 ((m2 cr sr').add (m2 ci v).neg))
      (acc.1 ++ [(sr', v)], y)) ([], dx))

/-- The parameters of a family in a model (R241). -/
structure SeqPar where
  lam : List (W32 × W32)
  c : List (W32 × W32)
  d : List W32
deriving DecidableEq, Repr

/-- The parameters of a family, from their bytes. -/
def seqPars (b : List W8) (d : FamDesc) : SeqPar :=
  let n := d.h * d.p
  let word (o : Nat) : W32 := w32 (natAt b o 4)
  let pair (o i : Nat) : W32 × W32 := (word (o + 8 * i), word (o + 8 * i + 4))
  { lam := (List.range n).map (pair 0), c := (List.range n).map (pair (8 * n)), d := (List.range d.h).map fun i => word (16 * n + 4 * i) }

/-- One event over all channels: the new state and the row of Y. -/
def seqEvent (d : FamDesc) (par : SeqPar) (xs : List W32) (st : List (W32 × W32)) : List (W32 × W32) × List W32 :=
  (List.range d.h).foldl (fun acc h =>
    let part {α : Type} (l : List α) : List α := (l.drop (h * d.p)).take d.p
    let x := xs.getD h 0
    let (ns, y) := seqMode (part par.lam) (part par.c) x (mulF (par.d.getD h 0) x) (part st)
    (acc.1 ++ ns, acc.2 ++ [y])) ([], [])

/-- All events of an entry. -/
def seqRun (d : FamDesc) (par : SeqPar) : List (List W32) → List (W32 × W32) → List (List W32) → List (W32 × W32) × List (List W32)
  | [], st, ys => (st, ys.reverse)
  | xs :: l, st, ys =>
    let (st', y) := seqEvent d par xs st
    seqRun d par l st' (y :: ys)

/-- The state a record holds, and the record of a state. -/
def stateOf (d : FamDesc) (b : List W8) : List (W32 × W32) :=
  (List.range (d.h * d.p)).map fun i => (w32 (natAt b (8 * i) 4), w32 (natAt b (8 * i + 4) 4))
def recordOf (d : FamDesc) (st : List (W32 × W32)) : List W8 :=
  let b := (st.map fun e => toBytes 4 e.1.toNat ++ toBytes 4 e.2.toNat).flatten
  b ++ List.replicate (d.rs - b.length) 0

/-- Entries of tile `o` (R245). -/
def Chunk.tileEnts (c : Chunk) (x : Ctx) (o : Nat) : List (Nat × SeqEnt × SeqRes) :=
  ((c.ents.zipIdx.map fun e => (e.2, e.1)).drop (o * Chunk.group x)).take (Chunk.group x)

/-- Bytes rounded up to whole lines. -/
def lineUp (n : Nat) : Nat := cdiv n 64 * 64

/-- An entry starts from a stored record. -/
def Fam.stored (m : Fam) (e : SeqEnt) : Bool :=
  let z := m.slots.get e.stream
  !e.reset && z.st != .unused

/-- What the streams of a SEQ_CHUNK tile bring, an entry a pass (R231, R232): its block of X, the parameters, its record. -/
def Chunk.xGroups (c : Chunk) (x : Ctx) (d : FamDesc) (o : Nat) : List Group :=
  (c.tileEnts x o).zipIdx.map fun e =>
    ⟨.op (addrAdd (x.a 6) (e.1.1 * Chunk.xPitch x d)), lineUp (e.1.2.1.len * d.h * (fmtBits (Chunk.ifmt x) / 8)), 0, 1, e.2, e.2⟩
def Chunk.pGroups (c : Chunk) (x : Ctx) (d : FamDesc) (o : Nat) : List Group :=
  [⟨.model d.offset, 16 * d.h * d.p + 4 * d.h, 0, 1, 0, (c.tileEnts x o).length - 1⟩]
def Chunk.sGroups (c : Chunk) (x : Ctx) (m : Fam) (o : Nat) : List Group :=
  ((c.tileEnts x o).zipIdx.map fun e =>
    if m.stored e.1.2.1 then
      (List.range m.d.subs).map fun j =>
        Group.mk (.pool (m.subAddr ((m.slots.get e.1.2.1.stream).entry.getD 0) j)) (min 4096 (lineUp (8 * m.d.h * m.d.p) - 4096 * j)) 0 1 e.2 e.2
    else []).flatten

/-- The outputs of entry `i` of a SEQ_CHUNK, from the bytes of its X and of its record (R242, R245). -/
def seqEntry (x : Ctx) (d : FamDesc) (par : SeqPar) (i : Nat) (e : SeqEnt) (xb rec_ : List W8) : SeqOut :=
  let w := fmtBits (Chunk.ifmt x) / 8
  let yb := fmtBits (Chunk.ofmt x) / 8
  let xs := (List.range e.len).map fun t => (List.range d.h).map fun c => toF32 (decodeFmt (Chunk.ifmt x) (natAt xb ((t * d.h + c) * w) w))
  let (st, ys) := seqRun d par xs (stateOf d rec_) []
  let yr := (ys.flatten.map fun v => toBytes yb (convertTo (Chunk.ofmt x) oneF v).bits).flatten
  ⟨i, [⟨addrAdd (x.a 8) (i * Chunk.yPitch x d), yr, 0⟩], recordOf d st⟩

/-- The outputs of a SEQ_CHUNK tile, from the pieces its streams have read. -/
def Chunk.tileOuts (c : Chunk) (x : Ctx) (m : Fam) (o : Nat) (a w sp : List (List (List W8))) : List SeqOut :=
  let par := seqPars (pieceAt w 0 0) m.d
  let recs := (c.sGroups x m o).zip sp
  (c.tileEnts x o).zipIdx.map fun e =>
    seqEntry x m.d par e.1.1 e.1.2.1 (pieceAt a e.2 0) (((recs.filter fun r => r.1.first = e.2).map fun r => r.2.flatten).flatten)

/-- An entry of a checked SEQ_CHUNK has been refused at resolution already: an earlier chunk of its chain resolved unapplied (R255). -/
def Fam.refusedAt (m : Fam) (e : SeqEnt) : Bool := (m.slots.get e.stream).broken && !e.reset

/-- Commits one entry of a tile (R245, R255): refused at resolution after an unapplied earlier chunk; otherwise its state and
outputs change together. -/
def State.seqCommitOne (s : State) (x : Ctx) (h : HostData) (o : SeqOut) : State :=
  match s.chunk? x.id, s.fam? x.ten (Chunk.famOf x) with
  | some c, some m =>
    match c.ents[o.idx]? with
    | none => s
    | some (e, _) =>
      let setRes (t : State) (r : SeqRes) : State :=
        t.withSeq fun q => { q with chunks := q.chunks.map fun k =>
          if k.id = x.id then { k with ents := k.ents.set o.idx (e, r) } else k }
      if m.refusedAt e then
        setRes ((s.updFam x.ten c.fam fun k => k.resolve x.id e false).radd32 .seqOrder x.ten 0 1) .refused
      else
        let t1 := (s.putGo x.fn h o.y).1.recWrite m ((m.slots.get e.stream).entry.getD 0) o.state
        let t2 := t1.updFam x.ten c.fam fun k =>
          ({ k with slots := k.slots.upd e.stream fun y => { y with st := .dirty } }).resolve x.id e true
        setRes t2 .applied
  | _, _ => s

/-- A line of an extent that a write would cover in part is poisoned, or has an error no code corrects (R224). -/
def State.partPoison (s : State) (fn : Nat) (g : Staged) : Option Fail :=
  if !isDev g.addr then none
  else
    let a := offOf g.addr
    let n := g.bytes.length
    (s.linesOf fn a n).zipIdx.findSome? fun l =>
      let lo := (a / 64 + l.2) * 64
      if (decide (lo < a) || decide (a + n < lo + 64)) && (s.linePoison l.1 || s.mem.errs.contains ⟨l.1, true⟩) then some (.poison l.1) else none

/-- Why the entries of a tile cannot be committed, before any of them is. -/
def State.seqBad (s : State) (x : Ctx) (m : Fam) (c : Chunk) (l : List SeqOut) : Option Fail :=
  let live := l.filter fun o => match c.ents[o.idx]? with
    | some (e, _) => !m.refusedAt e
    | none => false
  let ys := (live.map (·.y)).flatten
  ((s.putBad x.fn ys).orElse fun _ => ys.findSome? (s.partPoison x.fn)).orElse fun _ =>
    live.findSome? fun o => match c.ents[o.idx]? with
      | some (e, _) => (s.recHeld m ((m.slots.get e.stream).entry.getD 0)).map .held
      | none => none

/-- Commits the entries of a tile together (R245): where one of their writes cannot be made, none is. -/
def State.seqCommit (s : State) (x : Ctx) (h : HostData) (l : List SeqOut) : State × Option Fail :=
  match s.chunk? x.id, s.fam? x.ten (Chunk.famOf x) with
  | some c, some m => match s.seqBad x m c l with
    | some e => (s, some e)
    | none => (l.foldl (fun t o => t.seqCommitOne x h o) s, none)
  | _, _ => (s, none)

/-- Stack bytes of the writes of a SEQ_CHUNK tile: rows of Y and records (R79). -/
def State.seqOutBytes (s : State) (x : Ctx) (l : List SeqOut) : Nat :=
  match s.fam? x.ten (Chunk.famOf x) with
  | some m => l.foldl (fun n o => o.y.foldl (fun k g => k + stackBytes g.addr g.bytes.length) n + lineUp (8 * m.d.h * m.d.p)) 0
  | none => 0

/-- Status and DETAIL of a SEQ_CHUNK whose tiles have all committed (R245, R255). -/
def Chunk.endStatus (c : Chunk) : Nat × W32 :=
  match c.ents.findIdx? fun e => e.2 == .refused with
  | some i => (stOrder, w32 (i % 65536 + 65536))
  | none => (stDone, w32 ((c.ents.filter fun e => e.2 = .applied).length % 65536 + sat 65535 c.pageIns * 65536))

/-- A SEQ_CHUNK whose last tile has committed completes. -/
def State.seqFinish (s : State) (x : Ctx) : State :=
  match s.chunk? x.id with
  | some c => (s.finish x.id c.endStatus.1 c.endStatus.2).seqPump
  | none => s

/-! ### SEQ_TOUCH and SEQ_RETIRE (R246, R247) -/

/-- Code of a state (Table 11.10). -/
def SeqSlotSt.code : SeqSlotSt → Nat
  | .unused => 0
  | .clean => 1
  | .dirty => 2
  | .pagingIn => 3
  | .pagingOut => 4
  | .out => 5

/-- The state code a slot shows: one with space reserved for a chunk that starts from zero holds storage newer than any host copy. -/
def SeqSlot.shown (z : SeqSlot) : Nat :=
  if z.entry.isSome ∧ (z.st = .unused ∨ z.st = .out) then SeqSlotSt.dirty.code else z.st.code

/-- The checked SEQ_TOUCH of a context. -/
def State.touch? (s : State) (id : CtxId) : Option Touch := s.seq.touches.find? fun w => w.id = id

/-- The check of a SEQ_TOUCH (R246): its list is read, and its records are taken as the slots stand. -/
def State.touchCheck (s : State) (x : Ctx) (h : HostData) : State :=
  let f := fld (x.w 2) 0 8
  let n := fld (x.w 3) 0 16
  match s.fam? x.ten f with
  | none => s.finish x.id stBadPacket (badDetail 2 0 7)
  | some m =>
    s.gate x (stackBytes (x.a 4) (4 * n)) fun u =>
      let u := u.meetOp x.fn (x.a 4) (4 * n)
      match u.opRead x.fn h (x.a 4) (4 * n) with
      | .error e => u.failCmd x 4 0 e
      | .ok b =>
        let ks := (List.range n).map fun i => natAt b (4 * i) 4
        if ks.any fun k => decide (m.d.streams ≤ k) then u.finish x.id stBadPacket (badDetail 4 0 7)
        else
          let recs := (ks.map fun k => toBytes 4 (m.slots.get k).claim.toNat ++ toBytes 4 (m.slots.get k).shown).flatten
          u.withSeq fun q => { q with touches := q.touches ++ [{ id := x.id, ten := x.ten, fam := f, list := ks, recs := recs }] }

/-- SEQ_TOUCH (R246): its records are written, its slots marked as used, and OUT slots paged in as far as space is there. -/
def State.seqTouch (s : State) (x : Ctx) : State :=
  match s.touch? x.id, s.fam? x.ten (fld (x.w 2) 0 8) with
  | some w, some m =>
    s.gate x (if x.a 6 = 0 then 0 else stackBytes (x.a 6) w.recs.length) fun u =>
      let put : State × Option Fail := if x.a 6 = 0 then (u, none) else u.opWrite x.fn (x.a 6) w.recs
      match put with
      | (v, some e) => v.failCmd x 6 0 e
      | (v, none) =>
        let f := w.fam
        let v1 := w.list.foldl (fun t k => t.useSlot x.ten f k) v
        let outs := (w.list.filter fun k => (m.slots.get k).st = .out ∧ (m.slots.get k).entry = none).dedup
        let waiting := v1.seq.chunks.any fun c => c.ten == x.ten && c.fam == f && !c.acquired
        let evs := if m.d.paging = 0 ∨ waiting then [] else (m.evictable fun k z => z.st == .clean && !w.list.contains k)
        let room := if waiting then 0 else m.free + evs.length
        let go := outs.take room
        let v2 := (evs.take (go.length - m.free)).foldl (fun t k => t.evictSlot x.ten f k) v1
        let v3 := go.foldl (fun t k => (t.updFam x.ten f fun q =>
          { q.take k with slots := (q.take k).slots.upd k fun z => { z with st := .pagingIn } }).addPageOp x.ten f k false) v2
        let v4 := (v3.beginWait x 0 0).withSeq fun q => { q with touches := q.touches.map fun y =>
          if y.id = x.id then { y with begun := true, streams := go, n := go.length } else y }
        v4.seqPump
  | _, _ => s.finish x.id stBadPacket (badDetail 2 0 7)

/-- The packets of a queue that are checked against their families are checked in count order: one whose list read waits holds the check of
those behind it (R47, R249). -/
def State.listChecks (s : State) (q : Nat) (h : HostData) : (fuel : Nat) → State
  | 0 => s
  | n + 1 =>
    match (s.qCtxs q).find? fun x => decide (x.phase = .fetched) && ((x.op == 0x41 && (s.chunk? x.id).isNone) || (x.op == 0x42 && (s.touch? x.id).isNone)) with
    | none => s
    | some x =>
      let t := if x.op = 0x41 then s.seqCheck x h else s.touchCheck x h
      if (t.chunk? x.id).isSome || (t.touch? x.id).isSome || (t.ctx? x.id).all (fun y => decide (y.phase = .done)) then
        State.listChecks t q h n
      else t

/-- Every trace of a family goes; its pages join the dirty list (R247). -/
def State.dropFam (s : State) (t f : Nat) : State :=
  match s.seq.fams.get (t, f) with
  | none => s
  | some m =>
    let s1 := (m.pool ++ m.dirPages).foldl (fun u p => if (u.mem.pages.get p).st = .held then u.unholdPage p else u) s
    (s1.withSeq fun q =>
      { q with
        fams := q.fams.clear (t, f)
        ops := q.ops.filter fun o => !(o.ten = t ∧ o.fam = f)
        chunks := q.chunks.filter fun c => !(c.ten = t ∧ c.fam = f) }).freedUnits 4

/-- A retire must wait (R247): another command in flight names the family, fetched earlier or dispatched by now, or a paging operation of it is
in progress. -/
def State.famBusy (s : State) (x : Ctx) (f : Nat) : Bool :=
  (s.cp.ctxs.takeWhile fun y => y.id ≠ x.id).any (fun y => y.fn == x.fn && y.phase != .done && namesFam y == some f) ||
  s.cp.ctxs.any (fun y => y.fn == x.fn && y.op != 0x43 && (y.phase == .dispatched || y.phase == .running) && namesFam y == some f) ||
  s.seq.chunks.any (fun c => c.ten == x.ten && c.fam == f) || s.seq.ops.any (fun o => o.ten == x.ten && o.fam == f)

/-- DIRTY resident slots of a family. -/
def Fam.dirtySlots (m : Fam) : List Nat := (m.slots.ents.filter fun e => e.2.st = .dirty).map (·.1)

/-- SEQ_RETIRE (R247): once nothing names the family, its dirty records are written to the host area with SUBOP 1, and it goes. -/
def State.seqRetire (s : State) (x : Ctx) : State :=
  let f := fld (x.w 2) 0 8
  match s.fam? x.ten f with
  | none => s.finish x.id stBadPacket (badDetail 2 0 7)
  | some m =>
    if s.famBusy x f then s.beginWait x 0 0
    else if x.sub = 1 ∧ m.d.base ≠ 0 ∧ m.dirtySlots ≠ [] then
      (s.updFam x.ten f fun k => { k with retiring := some x.id }).beginUnits x (.memCopy 0) m.dirtySlots.length
    else (s.dropFam x.ten f).finish x.id stDone 0

/-- One record of a SEQ_RETIRE is written out. -/
def State.retireUnit (s : State) (x : Ctx) : UnitRes :=
  let f := fld (x.w 2) 0 8
  match s.fam? x.ten f with
  | none => .done s
  | some m =>
    match m.dirtySlots with
    | [] => .done s
    | k :: _ =>
      s.unitGate x m.d.rs fun t =>
        let t := t.recMeet m ((m.slots.get k).entry.getD 0)
        match t.recRead m ((m.slots.get k).entry.getD 0) with
        | .error e => .fail t 2 e
        | .ok bs => match t.opWrite x.fn (addrAdd m.d.base (k * m.d.rs)) bs with
          | (u, some e) => .fail u 2 e
          | (u, none) => .done ((u.radd32 .seqPageOuts x.ten 0 1).updSeqSlot x.ten f k fun z => { z with st := .clean })

end Sys2Proof.Machine
end

