-- ==== Sys2Proof/Machine/Intake.lean ====
section
/-! DEFINITION. Intake: record decoding, ID hashing, seeded generators, camera frames, and the decode split loop (R256 to
R267). -/

namespace Sys2Proof.Machine

/-! ### Jobs (R256) -/

/-- The state with Intake changed. -/
def State.withInt (s : State) (f : Intake → Intake) : State := { s with intake := f s.intake }

/-- The job of a command whose first slice has started. -/
def State.intJob? (s : State) (id : CtxId) : Option IntJob := s.intake.jobs.find? fun j => j.id = id

/-- Stack bytes of a list of writes. -/
def writeBytes (l : List (W64 × List W8)) : Nat := l.foldl (fun n e => n + stackBytes e.1 e.2.length) 0

/-- A command of family 0x5 completes. -/
def State.endIntJob (s : State) (x : Ctx) (st : Nat) (d : W32) : State :=
  (s.withInt fun i => { i with jobs := i.jobs.filter fun j => j.id ≠ x.id }).finish x.id st d

/-- The first slice of a command starts: its captures and plan, and the units that follow. -/
def State.startIntJob (s : State) (x : Ctx) (total : Nat) (j : IntJob) : State :=
  let s1 := s.withInt fun i => { i with jobs := i.jobs ++ [j] }
  if total = 0 then s1.endIntJob x j.status j.detail
  else s1.updCtx x.id fun y => match y.work with
    | .units e _ _ sl a b => { y with work := .units e total 0 sl a b }
    | _ => y

/-- A host read needs a far-tier request (R256). -/
def State.hostBusy (s : State) (x : Ctx) (as : List W64) : Bool := as.any (fun a => !isDev a) && s.farAvail x.part == 0

/-- Reads of the first slice of a command: paid for, or waiting. -/
def State.firstReads (s : State) (x : Ctx) (as : List (W64 × Nat)) (k : State → State) : State :=
  if s.hostBusy x (as.map (·.1)) then s.holdFor x 4
  else s.gate x (as.foldl (fun n e => n + stackBytes e.1 e.2) 0) k

/-- One unit that reads extents and then writes: charged, read, written (R36, R79). -/
def State.ioUnit (s : State) (x : Ctx) (rd : List (Nat × W64 × Nat)) (wr : List (W64 × List W8)) (w : Nat) : UnitRes :=
  if s.hostBusy x (rd.map (·.2.1)) then .wait (s.holdFor x 4)
  else s.unitGate x (rd.foldl (fun n e => n + stackBytes e.2.1 e.2.2) 0 + writeBytes wr) fun t =>
    match t.opWrites x.fn wr with
    | (u, none) => .done u
    | (u, some e) => .fail u w e

/-! ### Records and schemas (R257 to R260) -/

/-- A slot of a decode schema (Table 12.2). -/
structure DSlot where
  rows : Nat
  dense : Bool
  salt : W64
  idx : W64
  off : W64
  max : Nat
  cap : Nat
deriving DecidableEq, Repr

/-- A slot of 64 bytes. -/
def DSlot.parse (b : List W8) : DSlot :=
  { rows := natAt b 0 8 % 2 ^ 40, dense := bit (natAt b 0 8) 40, salt := w64 (natAt b 8 8), idx := w64 (natAt b 16 8)
    off := w64 (natAt b 24 8), max := natAt b 32 4, cap := natAt b 36 4 }

/-- The value rules of a slot (R258). -/
def slotOk (b : List W8) : Bool :=
  let d := DSlot.parse b
  natAt b 0 8 / 2 ^ 41 == 0 && (b.drop 40).all (· == 0) && aligned d.idx 64 && aligned d.off 64 && decide (1 ≤ d.max) &&
  (if d.dense then decide (d.max ≤ 4096) else
    decide (1 ≤ d.rows) && decide (d.max ≤ 65535) && decide (1 ≤ d.cap) && decide (d.cap ≤ 16777215))

/-- The header's rules (R258); `dense` says whether a slot is dense. -/
def schemaOk (b : List W8) (dense : Bool) : Bool :=
  decide (1 ≤ natAt b 0 2) && decide (natAt b 0 2 ≤ 1024) && (sliceB b 2 6).all (· == 0) && natAt b 8 8 % 64 == 0 &&
  natAt b 16 4 % 64 == 0 && (sliceB b 20 4).all (· == 0) && natAt b 24 8 % 64 == 0 && (b.drop 32).all (· == 0) &&
  (dense || natAt b 8 8 == 0)

/-- FNV over bytes (R261). -/
def fnv (l : List W8) : W64 := l.foldl (fun h b => (h ^^^ b.setWidth 64) * 0x00000100000001B3) 0xCBF29CE484222325

/-- The finaliser (R261). -/
def mix (z0 : W64) : W64 :=
  let z1 := (z0 ^^^ (z0 >>> 30)) * 0xBF58476D1CE4E5B9
  let z2 := (z1 ^^^ (z1 >>> 27)) * 0x94D049BB133111EB
  z2 ^^^ (z2 >>> 31)

/-- The row of a key (R261). -/
def hashRow (key salt : W64) (rows : Nat) : Nat := (mix (key ^^^ salt)).toNat * rows / 2 ^ 64

/-- The items of a KIND 1 payload: strings, or the check that fails (3 or 6). -/
def strings : (count : Nat) → List W8 → Except Nat (List (List W8))
  | 0, b => if b = [] then .ok [] else .error 3
  | n + 1, b =>
    let l := natAt b 0 2
    if b.length < 2 + l then .error 6
    else match strings n (b.drop (2 + l)) with
      | .ok r => .ok ((b.drop 2).take l :: r)
      | .error e => .error e

/-- One feature entry at the head of bytes: its items as (slot, value), the rest of the bytes, or the check that fails
(Table 12.3). -/
def entryItems (slots : List DSlot) (b : List W8) : Except Nat (List (Nat × Nat) × List W8) :=
  if b.length < 8 then .error 3
  else
    let hd := natAt b 0 8
    let slot := fld hd 0 10
    let kind := fld hd 10 3
    let count := fld hd 16 16
    let bytes := fld hd 32 32
    let padded := cdiv bytes 8 * 8
    let pay := (b.drop 8).take bytes
    if b.length < 8 + padded then .error 3
    else if ((kind = 0 ∨ kind = 2) ∧ bytes ≠ 8 * count) ∨ ((kind = 3 ∨ kind = 4) ∧ bytes ≠ 4 * count) then .error 3
    else match slots[slot]? with
      | none => .error 4
      | some d =>
        if 5 ≤ kind ∨ (!d.dense ∧ 3 ≤ kind) ∨ (d.dense ∧ kind ≤ 2) then .error 4
        else
          let rest := b.drop (8 + padded)
          let at8 (i : Nat) : Nat := natAt pay (8 * i) 8
          let at4 (i : Nat) : Nat := natAt pay (4 * i) 4
          match kind with
          | 0 => .ok ((List.range count).map fun i => (slot, hashRow (w64 (at8 i)) d.salt d.rows), rest)
          | 1 => match strings count pay with
            | .error e => .error e
            | .ok ss => .ok (ss.map fun t => (slot, hashRow (fnv t) d.salt d.rows), rest)
          | 2 =>
            if (List.range count).any fun i => decide (d.rows ≤ at8 i) then .error 5
            else .ok ((List.range count).map fun i => (slot, at8 i), rest)
          | 3 => .ok ((List.range count).map fun i => (slot, at4 i), rest)
          | _ => .ok ((List.range count).map fun i => (slot, (toF32 (ofInt (signedOf 32 (at4 i)))).toNat), rest)

/-- The items of a record's entries. -/
def recordItems (slots : List DSlot) : (n : Nat) → List W8 → Except Nat (List (Nat × Nat))
  | 0, _ => .ok []
  | n + 1, b =>
    match entryItems slots b with
    | .error e => .error e
    | .ok (l, rest) => match recordItems slots n rest with
      | .error e => .error e
      | .ok r => .ok (l ++ r)

/-- Cuts the records out (Table 12.3, reasons 1 and 2): the records, or the record and reason of the failure. -/
def frames : (n : Nat) → (r : Nat) → List W8 → Except (Nat × Nat) (List (List W8))
  | 0, r, b => if b = [] then .ok [] else .error (r - 1, 2)
  | n + 1, r, b =>
    let len := natAt b 0 4
    if b.length < 16 ∨ len < 16 ∨ len % 8 ≠ 0 ∨ b.length < len then .error (r, 1)
    else match frames n (r + 1) (b.drop len) with
      | .ok l => .ok (b.take len :: l)
      | .error e => .error e

/-- A decoded record: its REQUEST, its items, and whether it was emptied. -/
structure DRec where
  req : Nat
  items : List (Nat × Nat)
  emptied : Bool
deriving DecidableEq, Repr

/-- Decodes the records (R259): a content failure refuses, or with BADREC = 1 empties the record. -/
def decodeRecs (slots : List DSlot) (badrec : Bool) : (r : Nat) → List (List W8) → Except (Nat × Nat) (List DRec)
  | _, [] => .ok []
  | r, b :: l =>
    let one : Except Nat DRec :=
      match recordItems slots (natAt b 4 2) (b.drop 16) with
      | .ok it => .ok ⟨natAt b 8 8, it, false⟩
      | .error e => if badrec then .ok ⟨natAt b 8 8, [], true⟩ else .error e
    match one, decodeRecs slots badrec (r + 1) l with
    | .error e, _ => .error (r, e)
    | _, .error e => .error e
    | .ok d, .ok ds => .ok (d :: ds)

/-- Items of a record that name a slot, kept up to MAX_ITEMS (R260). -/
def DRec.kept (d : DRec) (slots : List DSlot) (k : Nat) : List Nat :=
  ((d.items.filter fun i => i.1 = k).map (·.2)).take (slots.getD k ⟨0, false, 0, 0, 0, 0, 0⟩).max

/-- Slots of a record that lost items to MAX_ITEMS. -/
def DRec.cut (d : DRec) (slots : List DSlot) : Nat :=
  (slots.zipIdx.filter fun e => decide (e.1.max < (d.items.filter fun i => i.1 = e.2).length)).length

/-- Kept items of a slot over all records. -/
def keptTotal (slots : List DSlot) (ds : List DRec) (k : Nat) : Nat := ds.foldl (fun n d => n + (d.kept slots k).length) 0

/-- What record `r` writes (R260); `before` are the items kept of each slot by earlier records. -/
def recWrites (hdr : List W8) (slots : List DSlot) (r : Nat) (before : List Nat) (d : DRec) : List (W64 × List W8) :=
  (slots.zipIdx.map fun e =>
    let b := before.getD e.2 0
    let l := d.kept slots e.2
    if e.1.dense then
      let vs := l ++ List.replicate (e.1.max - l.length) 0
      [(addrAdd (w64 (natAt hdr 8 8)) (r * natAt hdr 16 4 + 4 * e.1.cap), (vs.map (toBytes 4)).flatten)]
    else
      (if l = [] then [] else [(addrAdd e.1.idx (8 * b), (l.map (toBytes 8)).flatten)]) ++
      (if r = 0 then [(e.1.off, toBytes 4 0)] else []) ++ [(addrAdd e.1.off (4 * (r + 1)), toBytes 4 (b + l.length))]).flatten ++
  (if natAt hdr 24 8 = 0 then [] else [(addrAdd (w64 (natAt hdr 24 8)) (8 * r), toBytes 8 d.req)])

/-- The writes of all records, in order. -/
def planRecs (hdr : List W8) (slots : List DSlot) : (r : Nat) → (before : List Nat) → List DRec → List (List (W64 × List W8))
  | _, _, [] => []
  | r, before, d :: l =>
    recWrites hdr slots r before d :: planRecs hdr slots (r + 1) (before.zipIdx.map fun e => e.1 + (d.kept slots e.2).length) l

/-- The output extents of a decode, all named by the schema's word. -/
def decodeExts (hdr : List W8) (slots : List DSlot) (ds : List DRec) : List Ext :=
  (slots.zipIdx.map fun e =>
    if e.1.dense then [⟨6, w64 (natAt hdr 8 8), (ds.length - 1) * natAt hdr 16 4 + 4 * (e.1.cap + e.1.max)⟩]
    else [⟨6, e.1.idx, 8 * keptTotal slots ds e.2⟩, ⟨6, e.1.off, 4 * (ds.length + 1)⟩]).flatten ++
  (if natAt hdr 24 8 = 0 then [] else [⟨6, w64 (natAt hdr 24 8), 8 * ds.length⟩])

/-- INTAKE_DECODE's first slice (R259, R260): the schema, every record, every check, before anything is written. -/
def State.decodeStart (s : State) (x : Ctx) (h : HostData) : State :=
  let n := fld (x.w 2) 0 20
  let size := x.w 3
  let s := s.meetOp x.fn (x.a 6) 64
  match s.opRead x.fn h (x.a 6) 64 with
  | .error e => s.failFirst x 6 0 e
  | .ok hdr =>
    let ns := natAt hdr 0 2
    match s.check89 x.fn [⟨6, x.a 6, 64 + 64 * ns⟩] with
    | some (st, d) => s.finish x.id st d
    | none =>
      s.firstReads x [(x.a 6, 64 + 64 * ns), (x.a 4, size)] fun t =>
        let t := (t.meetOp x.fn (addrAdd (x.a 6) 64) (64 * ns)).meetOp x.fn (x.a 4) size
        match t.opRead x.fn h (addrAdd (x.a 6) 64) (64 * ns), t.opRead x.fn h (x.a 4) size with
        | .error e, _ => t.failCmd x 6 0 e
        | _, .error e => t.failCmd x 4 0 e
        | .ok sb, .ok rb =>
          let raw := (List.range ns).map fun i => sliceB sb (64 * i) 64
          let slots := raw.map DSlot.parse
          if !schemaOk hdr (slots.any (·.dense)) || !raw.all slotOk then t.finish x.id stBadPacket (badDetail 6 0 7)
          else
            let badrec : Bool := match x.part with
              | some p => t.rbit .intPolicy 0 p
              | none => false
            let refuse (k r : Nat) : State := t.finish x.id stRefused (w32 (k % 2 ^ 20 + r * 2 ^ 20))
            match frames n 0 rb with
            | .error (r, e) => refuse r e
            | .ok bs =>
              match decodeRecs slots badrec 0 bs with
              | .error (r, e) => refuse r e
              | .ok ds =>
                match slots.zipIdx.find? fun e => !e.1.dense && decide (e.1.cap < keptTotal slots ds e.2) with
                | some e => refuse e.2 7
                | none =>
                  match t.check89 x.fn (decodeExts hdr slots ds) with
                  | some (st, d) => t.finish x.id st d
                  | none =>
                    let cut := ds.foldl (fun k d => k + d.cut slots) 0
                    let bad := (ds.filter (·.emptied)).length
                    let t1 := (t.radd32 .badrec x.ten 0 bad).radd32 .trunc x.ten 0 cut
                    t1.startIntJob x n
                      { id := x.id, cap := [], data := [], plan := planRecs hdr slots 0 (List.replicate ns 0) ds, status := stDone
                        detail := w32 (n + b01 (cut ≠ 0) * 2 ^ 20 + b01 (bad ≠ 0) * 2 ^ 21) }

/-- One unit of a planned command: the writes decided in its first slice. -/
def State.planUnit (s : State) (x : Ctx) (j : IntJob) (k w : Nat) : UnitRes := s.ioUnit x [] (j.plan.getD k []) w

/-! ### Seeded generators (R263, R264) -/

/-- One round of the generator over (c0, c1, c2, c3). -/
def genRound (c : W32 × W32 × W32 × W32) (k0 k1 : W32) : W32 × W32 × W32 × W32 :=
  let p0 := 0xD2511F53 * c.1.toNat
  let p1 := 0xCD9E8D57 * c.2.2.1.toNat
  (w32 (p1 / 2 ^ 32) ^^^ c.2.1 ^^^ k0, w32 p1, w32 (p0 / 2 ^ 32) ^^^ c.2.2.2 ^^^ k1, w32 p0)

/-- A generator block (R263). -/
def genBlock (seed : W64) (req stream j : Nat) : List W32 :=
  let step (a : (W32 × W32 × W32 × W32) × W32 × W32) (_ : Nat) : (W32 × W32 × W32 × W32) × W32 × W32 :=
    (genRound a.1 a.2.1 a.2.2, a.2.1 + 0x9E3779B9, a.2.2 + 0xBB67AE85)
  let r := ((List.range 10).foldl step
    ((w32 req, w32 (req / 2 ^ 32), w32 stream, w32 j), w32 seed.toNat, w32 (seed.toNat / 2 ^ 32))).1
  [r.1, r.2.1, r.2.2.1, r.2.2.2]

/-- Element `e` of a distribution (Table 12.5): a raw word for DIST 0, else an FP32 value. -/
def genElem (dist : Nat) (seed : W64) (req stream : Nat) (param : W32) (e : Nat) : W32 :=
  let w := (genBlock seed req stream (e / 4)).getD (e % 4) 0
  let x := w.toNat / 256
  if dist = 0 then w
  else if dist = 1 then toF32 ((Fv.add (.fin false (2 * x) (-24)) (ofInt (-1))).mul (f32 param))
  else if dist = 2 then (if x < param.toNat % 2 ^ 25 then oneF else 0)
  else
    let ws := genBlock seed req stream e
    let sum : Int := ws.foldl (fun a v => a + ((v.toNat / 256 : Nat) : Int)) 0
    let d : Int := sum - 2 ^ 25
    let v := toF32 (.fin (decide (d < 0)) d.natAbs (-24))
    mulF (mulF v 0x3FDDB3D7) param

/-- RNG_FILL's first slice captures the seed and the epoch. -/
def State.rngStart (s : State) (x : Ctx) : State :=
  s.startIntJob x (fld (x.w 6) 0 20)
    { id := x.id, cap := [(s.rget ⟨.tenRngSeed, x.ten, 0⟩).toNat], data := [], plan := [], status := stDone
      detail := w32 (s.rnat .epoch % 65536) }

/-- One request's row of RNG_FILL (R264). -/
def State.rngUnit (s : State) (x : Ctx) (h : HostData) (j : IntJob) (k : Nat) : UnitRes :=
  let dist := x.sub % 8
  let f := if dist = 0 then 6 else fld (x.w 2) 0 4
  let b := fmtBits f / 8
  let n := fld (x.w 7) 0 16
  let ra := addrAdd (x.a 4) (8 * k)
  let oa := addrAdd (x.a 8) (k * (cdiv (n * b) 64 * 64))
  if s.hostBusy x [ra] then .wait (s.holdFor x 4)
  else s.unitGate x (stackBytes ra 8 + stackBytes oa (n * b)) fun t =>
    let t := t.meetOp x.fn ra 8
    match t.opRead x.fn h ra 8 with
    | .error e => .fail t 4 e
    | .ok rb =>
      let vs := (List.range n).map fun e => genElem dist (w64 (j.cap.getD 0 0)) (ofBytes rb) (x.w 3) (w32 (x.w 10)) e
      let out := (vs.map fun v => toBytes b (if dist = 0 then v.toNat else (convertTo f oneF v).bits)).flatten
      match t.opWrite x.fn oa out with
      | (u, none) => .done u
      | (u, some e) => .fail u 8 e

/-! ### Camera frames (R265 to R267) -/

/-- A frame header (Table 12.7). -/
structure FrameHdr where
  capture : W64
  width : Nat
  height : Nat
  m709 : Bool
  fullR : Bool
  deep : Bool
  rsv : Nat
  ya : W64
  ca : W64
  yp : Nat
  cp : Nat
deriving DecidableEq, Repr

/-- The header of 64 bytes. -/
def FrameHdr.parse (b : List W8) : FrameHdr :=
  let m := natAt b 12 1
  { capture := w64 (natAt b 0 8), width := natAt b 8 2, height := natAt b 10 2, m709 := bit m 0, fullR := bit m 1, deep := bit m 2
    rsv := m / 8, ya := w64 (natAt b 16 8), ca := w64 (natAt b 24 8), yp := natAt b 32 4, cp := natAt b 36 4 }

/-- The rules of R265. -/
def FrameHdr.ok (f : FrameHdr) : Bool :=
  let row := f.width * (1 + b01 f.deep)
  decide (2 ≤ f.width) && decide (f.width ≤ 4096) && f.width % 2 == 0 && decide (2 ≤ f.height) && decide (f.height ≤ 4096) &&
  f.height % 2 == 0 && f.rsv == 0 && aligned f.ya 64 && aligned f.ca 64 && f.yp % 64 == 0 && f.cp % 64 == 0 &&
  decide (row ≤ f.yp) && decide (row ≤ f.cp)

/-- A decimal constant rounded to FP32. -/
def ratio (a b : Nat) : W32 := toF32 ((ofInt a).div (ofInt b))

/-- R, G, B of a pixel before clamping, from its samples (R267, Table 12.8). -/
def FrameHdr.rgb (f : FrameHdr) (y cb cr : Nat) : List W32 :=
  let yo : Nat := if f.fullR then 0 else if f.deep then 64 else 16
  let ys := if f.deep then (if f.fullR then ratio 1 1023 else ratio 1 876) else (if f.fullR then ratio 1 255 else ratio 1 219)
  let co : Nat := if f.deep then 512 else 128
  let cs := if f.deep then (if f.fullR then ratio 1 1023 else ratio 1 896) else (if f.fullR then ratio 1 255 else ratio 1 224)
  let kr := if f.m709 then ratio 15748 10000 else ratio 1402 1000
  let kgb := if f.m709 then ratio 187324 1000000 else ratio 344136 1000000
  let kgr := if f.m709 then ratio 468124 1000000 else ratio 714136 1000000
  let kb := if f.m709 then ratio 18556 10000 else ratio 1772 1000
  let sc (v o : Nat) (k : W32) : W32 := toF32 ((ofInt ((v : Int) - o)).mul (f32 k))
  let y' := sc y yo ys
  let cb' := sc cb co cs
  let cr' := sc cr co cs
  [addF y' (mulF kr cr'), subF (subF y' (mulF kgb cb')) (mulF kgr cr'), addF y' (mulF kb cb')]

/-- Bytes per sample, and the sample of a row. -/
def FrameHdr.sample (f : FrameHdr) (row : List W8) (i : Nat) : Nat :=
  if f.deep then natAt row (2 * i) 2 / 64 else natAt row i 1

/-- FRAME_CONVERT's first slice (R266): the header is judged, and so is the frame's age. -/
def State.frameStart (s : State) (x : Ctx) (h : HostData) : State :=
  let norm := x.a 10
  s.firstReads x ([(x.a 4, 64)] ++ (if norm = 0 then [] else [(norm, 24)])) fun t =>
    let t := (t.meetOp x.fn (x.a 4) 64).meetOp x.fn norm (if norm = 0 then 0 else 24)
    match t.opRead x.fn h (x.a 4) 64, (if norm = 0 then .ok [] else t.opRead x.fn h norm 24) with
    | .error e, _ => t.failCmd x 4 0 e
    | _, .error e => t.failCmd x 10 0 e
    | .ok hb, .ok nb =>
      let f := FrameHdr.parse hb
      let b := fmtBits (fld (x.w 9) 0 4) / 8
      let pitch := cdiv (f.width * b) 64 * 64
      if !f.ok then t.finish x.id stBadPacket (badDetail 4 0 7)
      else match t.check89 x.fn [⟨4, f.ya, f.height * f.yp⟩, ⟨4, f.ca, f.height / 2 * f.cp⟩, ⟨6, x.a 6, 3 * f.height * pitch⟩] with
        | some (st, d) => t.finish x.id st d
        | none =>
          let age : Int := (t.now - f.capture).toInt
          let lim := if x.w 8 = 0 then t.rnat .frameAge x.ten else x.w 8
          let shown := w32 (sat (2 ^ 32 - 1) age.toNat)
          if x.w 8 ≠ 0xFFFFFFFF ∧ (lim : Int) < age then (t.radd32 .frameStale x.ten 0 1).finish x.id stStale shown
          else if age < 0 ∧ (t.rnat .frameFuture x.ten : Int) < -age then
            (t.radd32 .frameFutureCnt x.ten 0 1).finish x.id stRefused 1
          else t.startIntJob x f.height { id := x.id, cap := [], data := hb ++ nb, plan := [], status := stDone, detail := shown }

/-- One row of a frame (R267): read, converted, and written to the three planes. -/
def State.frameUnit (s : State) (x : Ctx) (h : HostData) (j : IntJob) (r : Nat) : UnitRes :=
  let f := FrameHdr.parse (j.data.take 64)
  let nb := j.data.drop 64
  let fmt := fld (x.w 9) 0 4
  let b := fmtBits fmt / 8
  let pitch := cdiv (f.width * b) 64 * 64
  let n := f.width * (1 + b01 f.deep)
  let ya := addrAdd f.ya (r * f.yp)
  let ca := addrAdd f.ca (r / 2 * f.cp)
  let oa (c : Nat) : W64 := addrAdd (x.a 6) ((c * f.height + r) * pitch)
  if s.hostBusy x [ya, ca] then .wait (s.holdFor x 4)
  else s.unitGate x (stackBytes ya n + stackBytes ca n + 3 * stackBytes (oa 0) (f.width * b)) fun t =>
    let t := (t.meetOp x.fn ya n).meetOp x.fn ca n
    match t.opRead x.fn h ya n, t.opRead x.fn h ca n with
    | .error e, _ => .fail t 4 e
    | _, .error e => .fail t 4 e
    | .ok yb, .ok cb =>
      let px := (List.range f.width).map fun i =>
        f.rgb (f.sample yb i) (f.sample cb (i / 2 * 2)) (f.sample cb (i / 2 * 2 + 1))
      let comp (c : Nat) : List W8 := (px.map fun p =>
        let v := minF (maxF (p.getD c 0) 0) oneF
        let v' := if nb = [] then v else mulF (subF v (w32 (natAt nb (4 * c) 4))) (w32 (natAt nb (12 + 4 * c) 4))
        toBytes b (convertTo fmt oneF v').bits).flatten
      match t.opWrites x.fn ((List.range 3).map fun c => (oa c, comp c)) with
      | (u, none) => .done u
      | (u, some e) => .fail u 6 e

/-! ### The decode split loop (R262) -/

/-- DECODE_SPLIT_UPDATE of one partition at a period boundary; a frozen loop keeps SPLIT, and its measures and reports go on (R14). -/
def State.splitUpdate (s : State) (p : Nat) : State :=
  let u := min (s.intake.busy.get p * 256 / 100000) 255
  let w := s.intake.wait.get p / 1000
  let c := s.rnat .splitCtrl p
  let lo := fld c 0 7
  let hi := max lo (fld c 8 7)
  let step := max 1 (fld c 16 3)
  let high := fld c 24 8
  let old := s.rfld .split 0 7 p
  let new :=
    if bit c 15 then old
    else if high ≤ u ∨ s.rfld .splitThresh 16 16 p ≤ w then max (old - step) lo
    else if u < s.rfld .splitThresh 0 8 p then min (old + step) hi
    else old
  let clear (t : State) : State := t.withInt fun i => { i with busy := i.busy.set p 0, wait := i.wait.set p 0 }
  let s2 := clear (s.rput .split p 0 (new + u * 256 + sat 65535 w * 65536))
  if u < high then s2.withInt fun i => { i with floor := i.floor.filter (· ≠ p) }
  else if new = lo ∧ !s2.intake.floor.contains p then
    (s2.withInt fun i => { i with floor := p :: i.floor }).event 0 { code := 0x1201, island := 32, d0 := p, d1 := u, d2 := w % 2 ^ 32 }
  else s2

/-- The split loops of all partitions. -/
def State.splitBoundary (s : State) : State := (List.range 16).foldl State.splitUpdate s

end Sys2Proof.Machine
end

