-- ==== Sys2Proof/Machine/Locale.lean ====
section
/-! DEFINITION. The Locale engine: pillars, rule books and gathers (R268 to R273). -/

namespace Sys2Proof.Machine

/-! ### LOCALE_PILLARS (R268 to R271) -/

/-- A Locale context descriptor (Table 12.10). -/
structure LocCtx where
  x0 : W32
  y0 : W32
  z0 : W32
  z1 : W32
  cell : W32
  inv : W32
  gx : Nat
  gy : Nat
  pmax : Nat
  coarsen : Bool
  maxF : Nat
  rsv : Nat
  feat : Nat
  ofmt : Nat
deriving DecidableEq, Repr

/-- The descriptor of 64 bytes. -/
def LocCtx.parse (b : List W8) : LocCtx :=
  let w (o : Nat) : W32 := w32 (natAt b o 4)
  let m := natAt b 29 1
  { x0 := w 0, y0 := w 4, z0 := w 8, z1 := w 12, cell := w 16, inv := w 20, gx := natAt b 24 2, gy := natAt b 26 2
    pmax := natAt b 28 1, coarsen := bit m 0, maxF := fld m 1 2, rsv := m / 8 + natAt b 32 32, feat := natAt b 30 1, ofmt := natAt b 31 1 }

/-- The value rules of Table 12.10. -/
def LocCtx.ok (c : LocCtx) : Bool :=
  posNormal c.cell && posNormal c.inv && decide (1 ≤ c.gx) && decide (c.gx ≤ 1024) && decide (1 ≤ c.gy) && decide (c.gy ≤ 1024) &&
  decide (1 ≤ c.pmax) && decide (c.pmax ≤ 64) && c.rsv == 0 && decide (c.feat ≤ 59) && (c.ofmt == 4 || c.ofmt == 6)

/-- Pitches: a point's features, and a point row (R268, R271). -/
def LocCtx.featPitch (c : LocCtx) : Nat := cdiv (4 * c.feat) 16 * 16
def LocCtx.rowPitch (c : LocCtx) : Nat := cdiv ((5 + c.feat) * (fmtBits c.ofmt / 8)) 64 * 64

/-- A scene table entry (Table 12.11). -/
structure LocScene where
  pts : W64
  feats : W64
  n : Nat
  rsv : Nat
deriving DecidableEq, Repr

/-- Scene `i` of the table. -/
def LocScene.parse (b : List W8) (i : Nat) : LocScene :=
  ⟨w64 (natAt b (32 * i) 8), w64 (natAt b (32 * i + 8) 8), natAt b (32 * i + 16) 4, natAt b (32 * i + 20) 4⟩

/-- An in-grid point: its cell, its coordinates, its number in the scene. -/
structure LocPt where
  i : Nat
  j : Nat
  e : W32
  n : W32
  u : W32
  k : Nat
deriving DecidableEq, Repr

/-- The floor of a finite value. -/
def Fv.floor : Fv → Option Int
  | .fin s m e =>
    let v : Int := if s then -(m : Int) else m
    some (if 0 ≤ e then v * 2 ^ e.toNat else v / 2 ^ (-e).toNat)
  | _ => none

/-- The cell of a coordinate in a grid of `g` (R269). -/
def cellOf (v o inv : W32) (g : Nat) : Option Nat :=
  match (f32 (mulF (subF v o) inv)).floor with
  | some i => if 0 ≤ i ∧ i < g then some i.toNat else none
  | none => none

/-- Bins one point; `none` drops it (R269). -/
def LocCtx.bin (c : LocCtx) (e n u : W32) (k : Nat) : Option LocPt :=
  if (f32 e).isNan || (f32 n).isNan || (f32 u).isNan || (f32 u).lt (f32 c.z0) || !(f32 u).lt (f32 c.z1) then none
  else match cellOf e c.x0 c.inv c.gx, cellOf n c.y0 c.inv c.gy with
    | some i, some j => some ⟨i, j, e, n, u, k⟩
    | _, _ => none

/-- Points grouped into pillars at factor `f`, ordered by j and then i, each with its points in input order (R269, R271). -/
def pillarsOf (f : Nat) (ps : List LocPt) : List ((Nat × Nat) × List LocPt) :=
  let keys := ((ps.map fun p => (p.j / f, p.i / f)).dedup).mergeSort fun a b => a.1 < b.1 || (a.1 == b.1 && decide (a.2 ≤ b.2))
  keys.map fun k => ((k.2, k.1), ps.filter fun p => p.i / f = k.2 ∧ p.j / f = k.1)

/-- The sample of a pillar above PMAX (R269). -/
def samplePts (pmax : Nat) (ps : List LocPt) : List LocPt :=
  if ps.length ≤ pmax then ps else (List.range pmax).filterMap fun k => ps[k * ps.length / pmax]?

/-- How a scene comes out (R270): written at 2^`fac`, reduced or not, with its pillars; or refused with a reason. -/
inductive LocOut where
  | write (reduced : Bool) (fac : Nat) (pil : List ((Nat × Nat) × List LocPt))
  | refuse (reason : Nat)
deriving DecidableEq, Repr

/-- Points kept at factor 2^`fac`. -/
def keptAt (c : LocCtx) (ps : List LocPt) (fac : Nat) : Nat :=
  (pillarsOf (2 ^ fac) ps).foldl (fun n p => n + min p.2.length c.pmax) 0

/-- The outcome of a scene before output capacity is looked at (R270). -/
def LocCtx.outcome (c : LocCtx) (n : Nat) (ps : List LocPt) : LocOut :=
  if 1048576 < n then .refuse 1
  else if !c.coarsen then
    let pil := pillarsOf 1 ps
    if 131072 < ps.length then .refuse 1
    else if pil.any fun p => decide (c.pmax < p.2.length) then .refuse 2
    else .write false 0 pil
  else match (List.range (c.maxF + 1)).find? fun fac => decide (keptAt c ps fac ≤ 131072) with
    | none => .refuse 3
    | some fac =>
      let pil := pillarsOf (2 ^ fac) ps
      .write (decide (fac ≠ 0) || pil.any fun p => decide (c.pmax < p.2.length)) fac
        (pil.map fun p => (p.1, samplePts c.pmax p.2))

/-- A point row (R271): e, n, u, de, dn and the features, converted. -/
def LocCtx.row (c : LocCtx) (fac : Nat) (i j : Nat) (p : LocPt) (feats : List W32) : List W8 :=
  let half (k : Nat) : Fv := .fin false (2 * k + 1) (-1)
  let step := mulF c.cell (toF32 (ofInt (2 ^ fac)))
  let off (o : W32) (k : Nat) : W32 := addF o (toF32 ((half k).mul (f32 step)))
  let vs := [p.e, p.n, p.u, subF p.e (off c.x0 i), subF p.n (off c.y0 j)] ++ feats
  (vs.map fun v => toBytes (fmtBits c.ofmt / 8) (convertTo c.ofmt oneF v).bits).flatten

/-- A pillar-list entry (R271). -/
def pillarEntry (i j count scene first : Nat) : List W8 :=
  toBytes 8 (i % 1024 + j % 1024 * 2 ^ 10 + count % 128 * 2 ^ 20 + scene % 1024 * 2 ^ 27 + first % 2 ^ 27 * 2 ^ 37)

/-- A scene's RESULT word (Table 12.11). -/
def sceneResult (outcome factor reason pillars kept : Nat) : List W8 :=
  toBytes 8 (outcome + factor * 4 + reason * 16 + pillars % 2 ^ 24 * 2 ^ 8 + kept % 2 ^ 18 * 2 ^ 32)

/-- What the scenes written so far add up to. -/
structure LocAcc where
  pil : Nat
  rows : Nat
  same : Nat
  reduced : Nat
  refused : Nat
  fac : Nat
  plan : List (List (W64 × List W8))
deriving DecidableEq, Repr

/-- One scene of the table, in order (R270, R271). -/
def LocCtx.scene (c : LocCtx) (x : Ctx) (feat : Nat → Nat → List W32) (a : LocAcc) (k : Nat) (o : LocOut) : LocAcc :=
  let res (b : List W8) : W64 × List W8 := (addrAdd (x.a 6) (32 * k + 24), b)
  let no (r : Nat) : LocAcc := { a with refused := a.refused + 1, plan := a.plan ++ [[res (sceneResult 2 0 r 0 0)]] }
  match o with
  | .refuse r => no r
  | .write red fac pil =>
    let kept := pil.foldl (fun n p => n + p.2.length) 0
    if x.w 12 < a.pil + pil.length ∨ fld (x.w 13) 0 27 < a.rows + kept then no 4
    else
      let ents := pil.foldl (fun (acc : List W8 × Nat) p => (acc.1 ++ pillarEntry p.1.1 p.1.2 p.2.length k acc.2, acc.2 + p.2.length)) ([], a.rows)
      let rows := (pil.map fun p => p.2.map fun q => c.row fac p.1.1 p.1.2 q (feat k q.k)).flatten
      let rw := rows.zipIdx.map fun e => (addrAdd (x.a 10) ((a.rows + e.2) * c.rowPitch), e.1)
      { pil := a.pil + pil.length, rows := a.rows + kept, same := a.same + b01 (!red), reduced := a.reduced + b01 red
        refused := a.refused, fac := max a.fac fac
        plan := a.plan ++ [(if ents.1 = [] then [] else [(addrAdd (x.a 8) (64 + 8 * a.pil), ents.1)]) ++ rw ++
          [res (sceneResult (b01 red) fac 0 pil.length kept)]] }

/-- LOCALE_PILLARS's first slice: everything is read and every outcome decided before anything is written (R270). -/
def State.pillarsStart (s : State) (x : Ctx) (h : HostData) : State :=
  let n := fld (x.w 2) 0 10
  let s := (s.meetOp x.fn (x.a 4) 64).meetOp x.fn (x.a 6) (32 * n)
  match s.opRead x.fn h (x.a 4) 64, s.opRead x.fn h (x.a 6) (32 * n) with
  | .error e, _ => s.failFirst x 4 0 e
  | _, .error e => s.failFirst x 6 0 e
  | .ok cb, .ok tb =>
    let c := LocCtx.parse cb
    let sc := (List.range n).map (LocScene.parse tb)
    if !c.ok then s.finish x.id stBadPacket (badDetail 4 0 7)
    else if sc.any fun q => q.n == 0 || q.rsv != 0 then s.finish x.id stBadPacket (badDetail 6 0 7)
    else
      let live := sc.filter fun q => q.n ≤ 1048576
      let exts : List (W64 × Nat) := (live.map fun q => [(q.pts, 16 * q.n)] ++ (if c.feat = 0 then [] else [(q.feats, q.n * c.featPitch)])).flatten
      match s.check89 x.fn ((exts.map fun e => Ext.mk 6 e.1 e.2) ++ [⟨10, x.a 10, fld (x.w 13) 0 27 * c.rowPitch⟩]) with
      | some (st, d) => s.finish x.id st d
      | none =>
        s.firstReads x ([(x.a 4, 64), (x.a 6, 32 * n)] ++ exts) fun t =>
          let t := exts.foldl (fun t e => t.meetOp x.fn e.1 e.2) t
          match mapE (fun q : LocScene => if 1048576 < q.n then .ok ([], []) else
              match t.opRead x.fn h q.pts (16 * q.n), (if c.feat = 0 then .ok [] else t.opRead x.fn h q.feats (q.n * c.featPitch)) with
              | .ok a, .ok b => .ok (a, b)
              | .error e, _ => .error e
              | _, .error e => .error e) sc with
          | .error e => t.failCmd x 6 0 e
          | .ok data =>
            let bins := (sc.zip data).map fun e => (List.range (if 1048576 < e.1.n then 0 else e.1.n)).map fun k =>
              c.bin (w32 (natAt e.2.1 (16 * k) 4)) (w32 (natAt e.2.1 (16 * k + 4) 4)) (w32 (natAt e.2.1 (16 * k + 8) 4)) k
            let dropped := bins.foldl (fun m l => m + (l.filter Option.isNone).length) 0
            let outs := (sc.zip bins).map fun e => c.outcome e.1.n (e.2.filterMap id)
            let feat (k p : Nat) : List W32 :=
              (List.range c.feat).map fun i => w32 (natAt (data.getD k ([], [])).2 (p * c.featPitch + 4 * i) 4)
            let a := (outs.zipIdx).foldl (fun a e => c.scene x feat a e.2 e.1) ⟨0, 0, 0, 0, 0, 0, []⟩
            let tag := t.rnat .sceneTag x.ten
            let hdr := toBytes 4 a.pil ++ toBytes 4 a.rows ++ toBytes 4 tag ++ toBytes 4 n ++ List.replicate 48 0
            let t1 := (((t.radd32 .locDropped x.ten 0 dropped).radd32 .locReduced x.ten 0 a.reduced).radd32 .locRefused x.ten 0
              a.refused).radd32 .sceneTag x.ten 0 1
            t1.startIntJob x (n + 1)
              { id := x.id, cap := [], data := [], plan := a.plan ++ [[(x.a 8, hdr)]]
                status := if a.refused ≠ 0 then stRefused else if a.reduced ≠ 0 then stCoarsened else stDone
                detail := w32 (a.same + a.reduced * 2 ^ 10 + a.refused * 2 ^ 20 + a.fac * 2 ^ 30) }

/-! ### RULEBOOK_BUILD (R272) -/

/-- A pillar-list entry as (i, j, scene). -/
def entryKey (v : Nat) : Nat × Nat × Nat := (fld v 0 10, fld v 10 10, fld v 27 10)

/-- Output entries of a rule book (R272): the input's at stride 1, the distinct halves in R271 order at stride 2. -/
def bookOuts (stride : Nat) (vs : List Nat) : List Nat :=
  if stride = 1 then vs
  else
    let ks := (vs.map fun v => let (i, j, c) := entryKey v; (c, j / 2, i / 2)).dedup
    (ks.mergeSort fun a b => a.1 < b.1 || (a.1 == b.1 && (a.2.1 < b.2.1 || (a.2.1 == b.2.1 && decide (a.2.2 ≤ b.2.2))))).map
      fun k => k.2.2 + k.2.1 * 2 ^ 10 + k.1 * 2 ^ 27

/-- Rule-book entries of one output entry: for each offset the input index, or 0xFFFF_FFFF (R272). -/
def bookEntry (ks stride : Nat) (vs : List Nat) (o : Nat) : List Nat :=
  let r := ks / 2
  let (i, j, c) := entryKey o
  ((List.range ks).map fun dy => (List.range ks).map fun dx =>
    let a : Int := (stride * i + dx : Nat) - (r : Int)
    let b : Int := (stride * j + dy : Nat) - (r : Int)
    ((vs.findIdx? fun v => let (p, q, d) := entryKey v; decide (d = c) && decide ((p : Int) = a) && decide ((q : Int) = b)).getD 0xFFFFFFFF)).flatten

/-- RULEBOOK_BUILD's first slice: the input list is read, and the book planned. -/
def State.bookStart (s : State) (x : Ctx) (h : HostData) : State :=
  let ks := fld (x.w 2) 0 3
  let stride := fld (x.w 2) 3 2
  let s := s.meetOp x.fn (x.a 4) 64
  match s.opRead x.fn h (x.a 4) 64 with
  | .error e => s.failFirst x 4 0 e
  | .ok hb =>
    let n := natAt hb 0 4
    match s.check89 x.fn [⟨4, x.a 4, 64 + 8 * n⟩] with
    | some (st, d) => s.finish x.id st d
    | none =>
      s.firstReads x [(x.a 4, 64 + 8 * n)] fun t =>
        let t := t.meetOp x.fn (addrAdd (x.a 4) 64) (8 * n)
        match t.opRead x.fn h (addrAdd (x.a 4) 64) (8 * n) with
        | .error e => t.failCmd x 4 0 e
        | .ok eb =>
          let vs := (List.range n).map fun i => natAt eb (8 * i) 8
          let os := bookOuts stride vs
          let m := os.length
          let base := 64 + cdiv (8 * m) 64 * 64
          let ko := ks * ks
          match t.check89 x.fn [⟨6, x.a 6, base + 4 * m * ko⟩] with
          | some (st, d) => t.finish x.id st d
          | none =>
            let hdr := toBytes 4 m ++ toBytes 4 n ++ sliceB hb 8 4 ++ toBytes 4 (ks + stride * 256 + ko * 65536) ++ List.replicate 48 0
            let unit (e : Nat × Nat) : List (W64 × List W8) :=
              [(addrAdd (x.a 6) (64 + 8 * e.2), toBytes 8 e.1),
               (addrAdd (x.a 6) (base + 4 * e.2 * ko), ((bookEntry ks stride vs e.1).map (toBytes 4)).flatten)]
            t.startIntJob x (m + 1)
              { id := x.id, cap := [], data := [], plan := os.zipIdx.map unit ++ [[(x.a 6, hdr)]], status := stDone, detail := w32 m }

/-! ### LOCALE_GATHER (R273) -/

/-- LOCALE_GATHER's first slice: the header, its tag, its list. -/
def State.locGatherStart (s : State) (x : Ctx) (h : HostData) : State :=
  let b := fmtBits (fld (x.w 2) 0 4) / 8
  let c := fld (x.w 10) 0 16
  let s := s.meetOp x.fn (x.a 4) 64
  match s.opRead x.fn h (x.a 4) 64 with
  | .error e => s.failFirst x 4 0 e
  | .ok hb =>
    let m := natAt hb 0 4
    let ko := fld (natAt hb 12 4) 16 8
    let base := 64 + cdiv (8 * m) 64 * 64
    let (len, row) := if x.sub = 0 then (base + 4 * m * ko, ko * c * b) else (64 + 8 * m, c * b)
    if x.w 3 ≠ 0 ∧ x.w 3 ≠ natAt hb 8 4 then s.finish x.id stRefused 3
    else if x.sub = 0 ∧ 65535 < ko * c then s.finish x.id stBadPacket (badDetail 4 0 7)
    else match s.check89 x.fn [⟨4, x.a 4, len⟩, ⟨8, x.a 8, m * (cdiv row 64 * 64)⟩] with
      | some (st, d) => s.finish x.id st d
      | none =>
        s.firstReads x [(x.a 4, 64)] fun t =>
          t.startIntJob x m { id := x.id, cap := [m, ko, base], data := [], plan := [], status := stDone, detail := w32 m }

/-- The greater of two elements of a format by their bits: integers as two's complement, NaN prevailing, +0 above −0 (R273). -/
def maxBits (fmt a b : Nat) : Nat :=
  if isIntFmt fmt then (if signedOf (fmtBits fmt) a < signedOf (fmtBits fmt) b then b else a)
  else
    let p := decodeFmt fmt a
    let q := decodeFmt fmt b
    if p.isNan || q.isNan then (ffmt fmt).nanBits
    else if p.lt q then b else if q.lt p then a else if p.sign then b else a

/-- One output row of a gather. -/
def State.locGatherUnit (s : State) (x : Ctx) (h : HostData) (j : IntJob) (o : Nat) : UnitRes :=
  let fmt := fld (x.w 2) 0 4
  let b := fmtBits fmt / 8
  let c := fld (x.w 10) 0 16
  let inP := cdiv (c * b) 64 * 64
  let ko := j.cap.getD 1 0
  let inA (r : Nat) : W64 := addrAdd (x.a 6) (r * inP)
  if x.sub = 0 then
    let ia := addrAdd (x.a 4) (j.cap.getD 2 0 + 4 * o * ko)
    let s := s.meetOp x.fn ia (4 * ko)
    match s.opRead x.fn h ia (4 * ko) with
    | .error (.held c) => .wait (s.heldUp x c)
    | .error e => .fail s 4 e
    | .ok ib =>
      let idx := (List.range ko).map fun k => natAt ib (4 * k) 4
      let oa := addrAdd (x.a 8) (o * (cdiv (ko * c * b) 64 * 64))
      let rows := idx.filter (· ≠ 0xFFFFFFFF)
      if s.hostBusy x (ia :: rows.map inA) then .wait (s.holdFor x 4)
      else s.unitGate x (stackBytes ia (4 * ko) + rows.foldl (fun n r => n + stackBytes (inA r) (c * b)) 0 + stackBytes oa (ko * c * b)) fun t =>
        let t := rows.foldl (fun t r => t.meetOp x.fn (inA r) (c * b)) t
        match mapE (fun r => if r = 0xFFFFFFFF then .ok (List.replicate (c * b) 0) else t.opRead x.fn h (inA r) (c * b)) idx with
        | .error e => .fail t 6 e
        | .ok bs => match t.opWrite x.fn oa bs.flatten with
          | (u, none) => .done u
          | (u, some e) => .fail u 8 e
  else
    let ea := addrAdd (x.a 4) (64 + 8 * o)
    let s := s.meetOp x.fn ea 8
    match s.opRead x.fn h ea 8 with
    | .error (.held c) => .wait (s.heldUp x c)
    | .error e => .fail s 4 e
    | .ok eb =>
      let v := ofBytes eb
      let cnt := fld v 20 7
      let rows := (List.range cnt).map fun k => fld v 37 27 + k
      let oa := addrAdd (x.a 8) (o * inP)
      if s.hostBusy x (ea :: rows.map inA) then .wait (s.holdFor x 4)
      else s.unitGate x (stackBytes ea 8 + rows.foldl (fun n r => n + stackBytes (inA r) (c * b)) 0 + stackBytes oa (c * b)) fun t =>
        let t := rows.foldl (fun t r => t.meetOp x.fn (inA r) (c * b)) t
        match mapE (fun r => t.opRead x.fn h (inA r) (c * b)) rows with
        | .error e => .fail t 6 e
        | .ok bs =>
          let el (r : List W8) (i : Nat) : Nat := natAt r (i * b) b
          let out := (List.range c).map fun i =>
            let one (v : Nat) : Nat := if !isIntFmt fmt && (decodeFmt fmt v).isNan then (ffmt fmt).nanBits else v
            match bs with
            | [] => 0
            | r0 :: rest => rest.foldl (fun m r => maxBits fmt m (el r i)) (one (el r0 i))
          match t.opWrite x.fn oa ((out.map (toBytes b)).flatten) with
          | (u, none) => .done u
          | (u, some e) => .fail u 8 e

/-! ### The six commands -/

/-- Engine of a command of family 0x5 (§12.1). -/
def intEngine (op : Nat) : Engine := if op = 0x50 ∨ op = 0x51 then .decode else if op = 0x52 then .frame else .locale

/-- A command of family 0x5 begins: it waits for its engine, which starts its first slice (R256). -/
def State.intBegin (s : State) (x : Ctx) : State := s.beginUnits x (intEngine x.op) 1

/-- The engine takes a command whose first slice has not started. -/
def State.intStart (s : State) (x : Ctx) (h : HostData) : State :=
  match x.op with
  | 0x50 => s.decodeStart x h
  | 0x51 => s.rngStart x
  | 0x52 => s.frameStart x h
  | 0x53 => s.pillarsStart x h
  | 0x54 => s.bookStart x h
  | _ => s.locGatherStart x h

/-- One unit of a command of family 0x5. -/
def State.intUnit (s : State) (x : Ctx) (h : HostData) (k : Nat) : UnitRes :=
  match s.intJob? x.id with
  | none => .wait s
  | some j =>
    match x.op with
    | 0x50 => s.planUnit x j k 6
    | 0x51 => s.rngUnit x h j k
    | 0x52 => s.frameUnit x h j k
    | 0x53 => s.planUnit x j k 8
    | 0x54 => s.planUnit x j k 6
    | _ => s.locGatherUnit x h j k

end Sys2Proof.Machine
end

