-- ==== Sys2Proof/Machine/Curve.lean ====
section
/-! DEFINITION. The two curves of chapter 13: their published parameters, point records and scalars, the element operations of
CURVE_OP with the edge inputs of Table 13.7, and the key of KEY_AGREE (R291 to R294, R298). -/

namespace Sys2Proof.Machine

/-! ### P-256 (parameters of SP 800-186; assumption log 12) -/

/-- The field prime of P-256. -/
def p256 : Nat := 2 ^ 256 - 2 ^ 224 + 2 ^ 192 + 2 ^ 96 - 1
/-- The coefficient b of y² = x³ − 3x + b. -/
def p256B : Nat := 0x5AC635D8AA3A93E7B3EBBD55769886BC651D06B0CC53B0F63BCE3C3E27D2604B
/-- The base point. -/
def p256G : Nat × Nat :=
  (0x6B17D1F2E12C4247F8BCE6E563A440F277037D812DEB33A0F4A13945D898C296,
   0x4FE342E2FE1A7F9B8EE7EB4A7C0F9E162BCE33576B315ECECBB6406837BF51F5)

/-- The order n of the group of a curve: 0 P-256, 1 ristretto255. -/
def curveOrder (c : Nat) : Nat :=
  if c = 0 then 0xFFFFFFFF00000000FFFFFFFFFFFFFFFFBCE6FAADA7179E84F3B9CAC2FC632551
  else 2 ^ 252 + 27742317777372353535851937790883648493

/-- b^e mod m, `k` bits of e from the lowest. -/
def powMod (m : Nat) : (k : Nat) → (b e : Nat) → Nat
  | 0, _, _ => 1 % m
  | k + 1, b, e =>
    let h := powMod m k (b * b % m) (e / 2)
    if e % 2 = 1 then b % m * h % m else h

/-- The inverse in the field of P-256. -/
def p256Inv (a : Nat) : Nat := powMod p256 256 a (p256 - 2)

/-- A point is on the curve, with coordinates below the prime. -/
def p256On (x y : Nat) : Bool :=
  decide (x < p256) && decide (y < p256) && y * y % p256 == (x * x * x + (p256 - 3) * x + p256B) % p256

/-- The identity of P-256 (R291): X = Y = 0. -/
def p256Id : Nat × Nat := (0, 0)

/-- Point addition, doubling and cancellation included. -/
def p256Add (a b : Nat × Nat) : Nat × Nat :=
  if a = p256Id then b
  else if b = p256Id then a
  else
    let line (l : Nat) : Nat × Nat :=
      let x := (l * l + 2 * p256 - a.1 - b.1) % p256
      (x, (l * (a.1 + p256 - x) + p256 - a.2) % p256)
    if a.1 = b.1 then
      if (a.2 + b.2) % p256 = 0 then p256Id
      else line ((3 * a.1 * a.1 + p256 - 3) * p256Inv (2 * a.2) % p256)
    else line ((b.2 + p256 - a.2) * p256Inv ((b.1 + p256 - a.1) % p256) % p256)

/-- k times a point, `n` bits of k from the lowest. -/
def p256Mul : (n : Nat) → (k : Nat) → Nat × Nat → Nat × Nat
  | 0, _, _ => p256Id
  | n + 1, k, a =>
    let h := p256Mul n (k / 2) (p256Add a a)
    if k % 2 = 1 then p256Add a h else h

/-! ### Point records (R291) -/

/-- A point record as 64 bytes. -/
abbrev PtRec := List W8

/-- A P-256 record. -/
def p256Rec (a : Nat × Nat) : PtRec := toBytes 32 a.1 ++ toBytes 32 a.2
/-- Coordinates of a record. -/
def recXY (r : PtRec) : Nat × Nat := (natAt r 0 32, natAt r 32 32)
/-- A ristretto255 record. -/
def ristRec (e : BitVec 256) : PtRec := toBytes 32 e.toNat ++ List.replicate 32 0
/-- The encoding in a record. -/
def recEnc (r : PtRec) : BitVec 256 := BitVec.ofNat 256 (natAt r 0 32)
/-- The record of the identity of either curve, and the record of a refused element. -/
def zeroRec : PtRec := List.replicate 64 0
/-- A record is the identity's. -/
def isIdRec (r : PtRec) : Bool := (sliceB r 0 64).all (· == 0)

/-- A record is one the device accepts: the identity, or a point (Table 13.7). -/
def ptOk (curve : Nat) (r : PtRec) : Bool :=
  isIdRec r ||
  (if curve = 0 then p256On (recXY r).1 (recXY r).2 else (sliceB r 32 32).all (· == 0) && Config.ristOk (recEnc r))

/-- The sum of two accepted records; with an identity, the other operand (Table 13.7). -/
def ptAdd (curve : Nat) (a b : PtRec) : PtRec :=
  if isIdRec a then b
  else if isIdRec b then a
  else if curve = 0 then p256Rec (p256Add (recXY a) (recXY b))
  else ristRec (Config.ristAdd (recEnc a) (recEnc b))

/-- A multiple of an accepted record; the identity for the identity and for a zero scalar (Table 13.7). -/
def ptMul (curve k : Nat) (a : PtRec) : PtRec :=
  if isIdRec a ∨ k = 0 then zeroRec
  else if curve = 0 then p256Rec (p256Mul 256 k (recXY a))
  else ristRec (Config.ristMul k (recEnc a))

/-- The base point of a curve. -/
def baseRec (curve : Nat) : PtRec := if curve = 0 then p256Rec p256G else ristRec Config.ristBase

/-- One element of CURVE_OP (R292, Table 13.7): its record and its element status.  `p` and `q` are points, `k` a scalar; a sealed
scalar lies in [1, n − 1]. -/
def curveElt (sub curve : Nat) (p q : PtRec) (k : Nat) : PtRec × Nat :=
  let useP := sub ≠ 1
  let useK := sub < 2
  if (useP && !ptOk curve p) || (sub = 2 && !ptOk curve q) then (zeroRec, stNotOnCurve)
  else if useK && decide (curveOrder curve ≤ k) then (zeroRec, stRange)
  else if sub = 0 then (ptMul curve k p, stDone)
  else if sub = 1 then (ptMul curve k (baseRec curve), stDone)
  else if sub = 2 then (ptAdd curve p q, stDone)
  else (sliceB p 0 64, stDone)

/-! ### KEY_AGREE (R298) -/

/-- The characters of "QSTMASK". -/
def qstMask : List W8 := [0x51, 0x53, 0x54, 0x4D, 0x41, 0x53, 0x4B]

/-- The key of KEY_AGREE for scalar `k`, peer record and ROLE: SHA-256 over the counter, Z, the label and both public points. -/
def agreeKey (curve k role : Nat) (peer : PtRec) : List W8 :=
  let own := ptMul curve k (baseRec curve)
  let z := ptMul curve k peer
  let zb := if curve = 0 then (sliceB z 0 32).reverse else sliceB z 0 32
  let p0 := if role = 0 then own else peer
  let p1 := if role = 0 then peer else own
  toBytes 32 (Config.sha256 ([0, 0, 0, 1] ++ zb ++ qstMask ++ p0 ++ p1)).toNat

/-! ### Masks, moduli and primes -/

/-- The modulus of MOD: 2^64 or p₆₁ (R277). -/
def modOf (m : Nat) : Nat := if m = 0 then 2 ^ 64 else 2 ^ 61 - 1

/-- M(σ, i) of a key (R290). -/
def maskWord (key : List W8) (m σ i : Nat) : Nat :=
  (Config.aes256 (BitVec.ofNat 256 (ofBytes key)) (BitVec.ofNat 128 (i % 2 ^ 64 + σ * 2 ^ 64))).toNat % modOf m

/-- Triple `t` of a key for a ROLE (R290). -/
def tripleOf (key : List W8) (m role t : Nat) : Nat × Nat × Nat :=
  let M := modOf m
  let u := 3 * t
  let a0 := maskWord key m 2 u
  let b0 := maskWord key m 2 (u + 1)
  let c0 := maskWord key m 2 (u + 2)
  if role = 0 then (a0, b0, c0)
  else
    let a1 := maskWord key m 3 u
    let b1 := maskWord key m 3 (u + 1)
    (a1, b1, ((a0 + a1) * (b0 + b1) + (M - c0)) % M)

/-- One round of the Miller–Rabin test to a base. -/
def millerRabin (q b : Nat) : Bool :=
  if b % q = 0 then true
  else
    let s := ((List.range 32).find? fun i => bit (q - 1) i).getD 0
    let x := powMod q 32 b ((q - 1) / 2 ^ s)
    x == 1 || (List.range s).any fun r => powMod q 32 x (2 ^ r) == q - 1

/-- The deterministic test to bases 2, 7 and 61 (R284). -/
def primeOk (q : Nat) : Bool := decide (3 ≤ q) && q % 2 == 1 && millerRabin q 2 && millerRabin q 7 && millerRabin q 61

end Sys2Proof.Machine
end

