-- ==== Sys2Proof/Machine/Quisto.lean ====
section
/-! DEFINITION. Quisto: the sealed-page port, sealed objects, and the commands that run on a Quisto unit as slices (R274 to R299). -/

namespace Sys2Proof.Machine

/-! ### The sealed-page port (R274, R275) -/

/-- Key generation of a tenant's sealed pages: TEN.QST_SEAL_GEN. -/
def State.sealGen (s : State) (fn : Nat) : W32 := w32 (s.rnat .sealGen (fn - 1))

/-- Generation under which a physical line of a sealed page is encrypted. -/
def State.lineGen (s : State) (line : Nat) : W32 :=
  match assoc? s.qst.lgen line with
  | some g => g
  | none => s.qst.pgen.get (line / 32768)

/-- A byte as a Quisto unit reads it: a sealed line written under another generation decrypts to a value the model leaves free. -/
def State.qByte (s : State) (fn a : Nat) : W8 :=
  let pa := s.phys fn a
  let line := pa / 64
  if (s.mapEnt fn a).sealed && s.lineGen line != s.sealGen fn then
    Config.staleByte (s.lineGen line) (s.sealGen fn) (fn - 1) line (pa % 64) (memGets s.mem.bytes (line * 64) 64)
  else memGet s.mem.bytes pa

/-- A read by a Quisto unit. -/
def State.qRead (s : State) (fn a n : Nat) : Except Fail (List W8) :=
  if !s.extOk fn a n then .error .range
  else match s.extHeld fn a n, (s.linesOf fn a n).find? fun l => s.linePoison l || s.mem.errs.contains ⟨l, true⟩ with
    | some c, _ => .error (.held c)
    | none, some l => .error (.poison l)
    | none, none => .ok ((List.range n).map fun i => s.qByte fn (a + i))

/-- A line of a sealed page written under the current generation; an object header there is gone. -/
def Qst.wrote (q : Qst) (line : Nat) (g : W32) : Qst :=
  { q with
    hdrs := q.hdrs.filter fun e => e.1 ≠ line
    lgen := if q.pgen.get (line / 32768) = g then q.lgen.filter fun e => e.1 ≠ line else assocSet q.lgen line g }

/-- A write within one line by a Quisto unit. -/
def State.qPut (s : State) (fn a : Nat) (bs : List W8) : Except Fail State :=
  let pa := s.phys fn a
  let line := pa / 64
  if !(s.mapEnt fn a).sealed then s.lineWrite pa bs
  else
    let g := s.sealGen fn
    let put (t : Except Fail State) : Except Fail State :=
      match t with
      | .ok u => .ok (u.withQst fun q => q.wrote line g)
      | .error e => .error e
    if bs.length = 64 ∨ s.lineGen line = g then put (s.lineWrite pa bs)
    else if s.linePoison line then .error (.poison line)
    else
      let o := pa % 64
      put (s.lineWrite (line * 64) ((List.range 64).map fun i =>
        if o ≤ i ∧ i < o + bs.length then bs.getD (i - o) 0 else s.qByte fn (a - o + i)))

/-- Writes in ascending address order, line by line. -/
def State.qWriteGo : (fuel : Nat) → State → (fn a : Nat) → List W8 → State × Option Fail
  | 0, s, _, _, _ => (s, none)
  | _ + 1, s, _, _, [] => (s, none)
  | k + 1, s, fn, a, bs =>
    let n := 64 - a % 64
    if !s.devOk fn a then (s, some .range)
    else match s.qPut fn a (bs.take n) with
      | .error e => (s, some e)
      | .ok s' => State.qWriteGo k s' fn (a + n) (bs.drop n)

/-- A write by a Quisto unit. -/
def State.qWrite (s : State) (fn a : Nat) (bs : List W8) : State × Option Fail := State.qWriteGo (bs.length + 1) s fn a bs

/-- `n` numbers of `b` bytes each. -/
def State.qNats (s : State) (fn a b n : Nat) : Except Fail (List Nat) :=
  match s.qRead fn a (b * n) with
  | .ok l => .ok ((List.range n).map fun i => natAt l (b * i) b)
  | .error e => .error e

/-! ### Sealed objects (R277 to R279) -/

/-- Bytes of an element (Table 13.1); a MASK_KEY holds a key and three counters. -/
def ObjType.size : ObjType → Nat
  | .shares => 8
  | .triples => 24
  | .scalar => 32
  | .maskKey => 56

/-- Size of an object. -/
def objBytes (t : ObjType) (n : Nat) : Nat := cdiv (64 + t.size * n) 64 * 64

/-- An extent lies wholly in SEALED pages of a function. -/
def State.sealedExt (s : State) (fn a n : Nat) : Bool := s.units fn a n fun e => e.valid && e.sealed

/-- The header at a device address, if a header of the present generation stands there. -/
def State.hdr? (s : State) (fn a : Nat) : Option ObjHdr :=
  if a % 64 ≠ 0 then none
  else match assoc? s.qst.hdrs (s.phys fn a / 64) with
    | some h => if h.gen = s.sealGen fn then some h else none
    | none => none

/-- A header changed in place: a counter advances (R279). -/
def State.updHdr (s : State) (fn a : Nat) (f : ObjHdr → ObjHdr) : State :=
  let l := s.phys fn a / 64
  s.withQst fun q => { q with hdrs := q.hdrs.map fun e => if e.1 = l then (e.1, f e.2) else e }

/-- Eight free words: the bytes of a header line, whose layout is not architectural. -/
def State.freeLine (s : State) : (n : Nat) → List W8 × State
  | 0 => ([], s)
  | n + 1 =>
    let (l, t) := s.freeLine n
    let (v, u) := t.free
    (l ++ toBytes 8 v.toNat, u)

/-- A header written at a device address. -/
def State.putHdr (s : State) (fn a : Nat) (h : ObjHdr) : State × Option Fail :=
  let (bs, t) := s.freeLine 8
  match t.qWrite fn a bs with
  | (u, none) => (u.withQst fun q => { q with hdrs := (u.phys fn a / 64, { h with gen := u.sealGen fn }) :: q.hdrs }, none)
  | (u, some e) => (u, some e)

/-- Why a Quisto command ends at its begin. -/
inductive QEnd where
  | status (st : Nat) (d : W32)
  | fail (word : Nat) (e : Fail)
deriving Repr

/-- ST_BAD_PACKET, reason 7, at a word and bit. -/
def badAt (w b : Nat) : QEnd := .status stBadPacket (badDetail w b 7)
/-- ST_SEALED_DENIED at a word. -/
def deniedAt (w : Nat) : QEnd := .status stSealedDenied (w32 w)

/-- An input object (R278): wholly in SEALED pages, with a completed header that passes a test. -/
def State.objIn (s : State) (x : Ctx) (w : Nat) (p : ObjHdr → Bool) : Except QEnd ObjHdr :=
  let a := offOf (x.a w)
  if !s.sealedExt x.fn a 64 then .error (deniedAt w)
  else match s.qRead x.fn a 64 with
    | .error e => .error (.fail w e)
    | .ok _ => match s.hdr? x.fn a with
      | none => .error (badAt w 0)
      | some h =>
        if !h.done || !p h then .error (badAt w 0)
        else if !s.sealedExt x.fn a (objBytes h.type h.count) then .error (deniedAt w)
        else .ok h

/-- An output object's extent (R278). -/
def State.objOut (s : State) (x : Ctx) (w n : Nat) : Except QEnd Unit :=
  if !aligned (x.a w) 64 then .error (badAt w (lowBit 6 ((x.a w).toNat % 64)))
  else if !s.sealedExt x.fn (offOf (x.a w)) n then .error (deniedAt w)
  else .ok ()

/-- An ordinary extent known only at the begin (check 8). -/
def State.extIn (s : State) (x : Ctx) (w n : Nat) : Except QEnd Unit :=
  if s.extOk x.fn (offOf (x.a w)) n then .ok () else .error (.status stRange (w32 w))

/-- An output that overlaps an input otherwise than by coinciding exactly with an input of SHARE_OP (R278). -/
def lapBad (out n : Nat) (exact : Bool) (ins : List (Nat × Nat)) : Bool :=
  ins.any fun i => overlap out n i.1 i.2 && !(exact && out == i.1 && n == i.2)

/-! ### Operands (Table 13.2) -/

namespace Qop
def unit (x : Ctx) : Nat := fld (x.w 2) 0 2
def b8 (x : Ctx) : Nat := fld (x.w 2) 8 1
def b9 (x : Ctx) : Nat := fld (x.w 2) 9 1
def slot (x : Ctx) : Nat := fld (x.w 2) 8 3
def dstSlot (x : Ctx) : Nat := fld (x.w 2) 12 3
def off (x : Ctx) (w : Nat) : Nat := offOf (x.a w)
/-- COUNT as the packet gives it; `c` for a command that takes it from an object. -/
def count (x : Ctx) (c : Nat) : Nat :=
  match x.op with
  | 0x73 => fld (x.w 3) 0 9
  | 0x74 => fld (x.w 3) 0 16
  | 0x77 => fld (x.w 3) 0 17
  | 0x78 => fld (x.w 3) 0 17
  | 0x7A => 1
  | 0x7B => c
  | 0x72 => 0
  | _ => fld (x.w 3) 0 24
/-- BCAST: of SHARE_OP, w2[9]; of CURVE_OP, w2[10]. -/
def bcast (x : Ctx) : Bool := if x.op = 0x77 then bit (x.w 2) 10 else bit (x.w 2) 9
def msgLen (x : Ctx) : Nat := fld (x.w 2) 16 11
def msgPitch (x : Ctx) : Nat := max 64 (cdiv (msgLen x) 64 * 64)
/-- The 64-bit INDEX at w8–w9 (w6–w7 of TRIPLE_GEN). -/
def index (x : Ctx) : Nat := if x.op = 0x76 then (x.a 6).toNat else (x.a 8).toNat
def first (x : Ctx) : Nat := x.w 12
end Qop

/-- Pitch of a gate ciphertext (R285). -/
def QParam.pitch (p : QParam) : Nat := cdiv (4 * (p.nlwe + 1)) 64 * 64
/-- Primes of the basis. -/
def QParam.k (p : QParam) : Nat := p.primes.length
/-- Bytes of BSK and of KSK (R285). -/
def QParam.bsk (p : QParam) : Nat := p.nlwe * 16 * p.l * p.k * p.n
def QParam.ksk (p : QParam) : Nat := p.n * p.ksL * 4 * (p.nlwe + 1)

/-- Parses and validates a descriptor (R284). -/
def qparam? (b : List W8) : Option QParam :=
  let k := natAt b 4 1
  let ps := (List.range k).map fun i => natAt b (16 + 4 * i) 4
  let p : QParam :=
    { n := natAt b 0 2, nlwe := natAt b 2 2, l := natAt b 5 1, bgLog := natAt b 6 1, ksL := natAt b 7 1, ksLog := natAt b 8 1
      primes := ps, bytes := b }
  if (p.n = 1024 ∨ p.n = 2048) ∧ 256 ≤ p.nlwe ∧ p.nlwe ≤ 1024 ∧ p.nlwe % 64 = 0 ∧ 1 ≤ k ∧ k ≤ 12 ∧ 1 ≤ p.l ∧ p.l ≤ 8 ∧
      1 ≤ p.bgLog ∧ p.bgLog ≤ 31 ∧ 1 ≤ p.ksL ∧ p.ksL ≤ 16 ∧ 1 ≤ p.ksLog ∧ p.ksLog ≤ 8 ∧
      (sliceB b 9 7).all (· == 0) ∧ (sliceB b (16 + 4 * k) (48 - 4 * k)).all (· == 0) ∧
      ps.all (fun q => decide (2 ^ 20 < q) && decide (q < 2 ^ 31) && q % (2 * p.n) == 1 && primeOk q) ∧ ps.Nodup ∧
      p.l * p.bgLog ≤ 31 * k ∧ p.ksL * p.ksLog ≤ 32
  then some p else none

/-! ### What a command checks and consumes at its begin (R278, R279, R289, R290, R299) -/

/-- A parameter slot that a command names; one that has never been set fails check 7. -/
def State.param (s : State) (x : Ctx) (k b : Nat) : Except QEnd QParam :=
  match s.qst.params.get (x.ten, k) with
  | some p => .ok p
  | none => .error (badAt 2 b)

/-- GATE_BATCH's checks. -/
def State.gateCheck (s : State) (x : Ctx) : Except QEnd (State × List Nat × List QParam) := do
  let p ← s.param x (Qop.slot x) 8
  let n := Qop.count x 0
  let ins := [(4, 16 * n), (6, fld (x.w 14) 0 24 * p.pitch), (10, p.bsk), (12, p.ksk)]
  if lapBad (Qop.off x 8) (n * p.pitch) false (ins.map fun e => (Qop.off x e.1, e.2)) then .error (badAt 8 0)
  else
    s.extIn x 6 (fld (x.w 14) 0 24 * p.pitch)
    s.extIn x 8 (n * p.pitch)
    s.extIn x 10 p.bsk
    s.extIn x 12 p.ksk
    .ok (s, [], [p])

/-- BASE_CONVERT's checks. -/
def State.convCheck (s : State) (x : Ctx) : Except QEnd (State × List Nat × List QParam) := do
  let p ← s.param x (Qop.slot x) 8
  let q ← s.param x (Qop.dstSlot x) 12
  let n := Qop.count x 0 * p.n * 4
  if p.n ≠ q.n ∨ p.primes.any q.primes.contains then .error (badAt 2 12)
  else if overlap (Qop.off x 6) (n * q.k) (Qop.off x 4) (n * p.k) then .error (badAt 6 0)
  else
    s.extIn x 4 (n * p.k)
    s.extIn x 6 (n * q.k)
    .ok (s, [], [p, q])

/-- A SHARES object of a count, and of a MOD where one is given. -/
def isShares (n : Nat) (m : Option Nat) (h : ObjHdr) : Bool :=
  decide (h.type = .shares) && h.count == n && (match m with
    | some k => h.attr == k
    | none => true)

/-- SHARE_OP's checks (R289). -/
def State.shareCheck (s : State) (x : Ctx) : Except QEnd (State × List Nat × List QParam) := do
  let n := Qop.count x 0
  let zn := objBytes .shares (if x.sub = 3 then 1 else n)
  let z := Qop.off x 10
  if x.sub = 5 then
    let y ← s.objIn x 6 fun h => decide (h.type = .triples)
    s.objOut x 10 zn
    if lapBad z zn true [(Qop.off x 6, objBytes .triples y.count), (Qop.off x 8, 16 * n)] then .error (badAt 10 0)
    else if Qop.first x ≠ y.nextClose ∨ y.nextOpen < Qop.first x + n then .error (.status stOrder 2)
    else .ok (s.updHdr x.fn (Qop.off x 6) fun h => { h with nextClose := Qop.first x + n }, [y.attr, n, 0, y.base], [])
  else
    let a ← s.objIn x 4 (isShares n none)
    if x.sub < 2 then
      let _ ← s.objIn x 6 (isShares n (some a.attr))
      s.objOut x 10 zn
      .ok (s, [a.attr, n, 0, 0], [])
    else
      s.objOut x 10 zn
      .ok (s, [a.attr, n, 0, 0], [])

/-- TRIPLE_GEN's checks (R290). -/
def State.tripleCheck (s : State) (x : Ctx) : Except QEnd (State × List Nat × List QParam) := do
  let n := Qop.count x 0
  let k ← s.objIn x 4 fun h => decide (h.type = .maskKey)
  s.objOut x 8 (objBytes .triples n)
  if Qop.index x < k.nextTriple then .error (.status stOrder 1)
  else .ok (s.updHdr x.fn (Qop.off x 4) fun h => { h with nextTriple := Qop.index x + n }, [Qop.b8 x, n, k.role, Qop.index x], [])

/-- A SCALAR object of a curve and count (R292). -/
def isScalar (c n : Nat) (h : ObjHdr) : Bool := decide (h.type = .scalar) && h.attr == c && h.count == n

/-- CURVE_OP's checks (R292). -/
def State.curveCheck (s : State) (x : Ctx) : Except QEnd (State × List Nat × List QParam) := do
  let n := Qop.count x 0
  if s.extSealed x.fn (Qop.off x 8) (64 * n) then .error (deniedAt 8)
  else if x.sub < 2 ∧ Qop.b9 x = 0 then
    let _ ← s.objIn x 6 (isScalar (Qop.b8 x) (if Qop.bcast x then 1 else n))
    .ok (s, [Qop.b8 x, n, 0, 0], [])
  else .ok (s, [Qop.b8 x, n, 0, 0], [])

/-- HASH_TO_CURVE's checks (R292): the domain separation tag's length. -/
def State.hashCheck (s : State) (x : Ctx) : Except QEnd (State × List Nat × List QParam) :=
  match s.qRead x.fn (Qop.off x 6) 1 with
  | .error e => .error (.fail 6 e)
  | .ok b => do
    let l := ofBytes b
    if l = 0 then .error (badAt 6 0)
    else if lapBad (Qop.off x 8) (64 * Qop.count x 0) false [(Qop.off x 6, 1 + l)] then .error (badAt 8 0)
    else
      s.extIn x 6 (1 + l)
      if x.sub = 1 then
        let _ ← s.objIn x 10 (isScalar (Qop.b8 x) (Qop.count x 0))
        .ok (s, [Qop.b8 x, Qop.count x 0, l, 0], [])
      else .ok (s, [Qop.b8 x, Qop.count x 0, l, 0], [])

/-- SHARE_EXPORT's checks (R299). -/
def State.exportCheck (s : State) (x : Ctx) : Except QEnd (State × List Nat × List QParam) := do
  let a ← s.objIn x 4 fun h => decide (h.type = .shares)
  let n := a.count
  let dn := (if x.sub = 1 then 16 else 8) * n
  if x.sub = 0 then
    let k ← s.objIn x 6 fun h => decide (h.type = .maskKey)
    s.extIn x 10 dn
    if lapBad (Qop.off x 10) dn false [(Qop.off x 4, objBytes .shares n), (Qop.off x 6, objBytes .maskKey 1)] then .error (badAt 10 0)
    else if Qop.index x < k.nextOut then .error (.status stOrder 3)
    else .ok (s.updHdr x.fn (Qop.off x 6) fun h => { h with nextOut := Qop.index x + n }, [a.attr, n, k.role, 0], [])
  else
    let _ ← s.objIn x 6 (isShares n (some a.attr))
    let t ← s.objIn x 8 fun h => decide (h.type = .triples) && h.attr == a.attr
    s.extIn x 10 dn
    if lapBad (Qop.off x 10) dn false
        [(Qop.off x 4, objBytes .shares n), (Qop.off x 6, objBytes .shares n), (Qop.off x 8, objBytes .triples t.count)] then .error (badAt 10 0)
    else if Qop.first x ≠ t.nextOpen then .error (.status stOrder 5)
    else if t.base + t.count < Qop.first x + n then .error (badAt 8 0)
    else .ok (s.updHdr x.fn (Qop.off x 8) fun h => { h with nextOpen := Qop.first x + n }, [a.attr, n, 0, t.base], [])

/-- SHARE_IMPORT's checks (R299). -/
def State.importCheck (s : State) (x : Ctx) : Except QEnd (State × List Nat × List QParam) := do
  let n := Qop.count x 0
  let k ← s.objIn x 6 fun h => decide (h.type = .maskKey)
  s.objOut x 10 (objBytes .shares n)
  if Qop.index x < k.nextIn then .error (.status stOrder 4)
  else .ok (s.updHdr x.fn (Qop.off x 6) fun h => { h with nextIn := Qop.index x + n }, [Qop.b8 x, n, k.role, 0], [])

/-- The checks and counters of a Quisto command at its begin. -/
def State.qCheck (s : State) (x : Ctx) : Except QEnd (State × List Nat × List QParam) :=
  match x.op with
  | 0x72 => .ok (s, [0, 0, 0, 0], [])
  | 0x73 => s.gateCheck x
  | 0x74 => s.convCheck x
  | 0x75 => s.shareCheck x
  | 0x76 => s.tripleCheck x
  | 0x77 => s.curveCheck x
  | 0x78 => s.hashCheck x
  | 0x79 => do
    s.objOut x 4 (objBytes (if x.sub = 0 then .shares else .scalar) (Qop.count x 0))
    .ok (s, [Qop.b8 x, Qop.count x 0, 0, 0], [])
  | 0x7A => do
    let _ ← s.objIn x 4 (isScalar (Qop.b8 x) 1)
    s.objOut x 8 (objBytes .maskKey 1)
    .ok (s, [Qop.b8 x, 1, Qop.b9 x, 0], [])
  | 0x7B => s.exportCheck x
  | _ => s.importCheck x

/-! ### Slices (R281, R282, R287 to R293, R297, R299) -/

/-- Cycles of the micro-steps of a refresh (R287). -/
def refreshSteps (p : QParam) : List Nat :=
  512 :: (List.replicate p.nlwe (p.n / 1024 * (96 * p.k * p.l + 32)) ++ [2 * p.n + 1200])

/-- Consecutive micro-steps put into slices of at most 30,000 cycles: (cycles, micro-steps) of each slice (R287). -/
def greedy : List Nat → (cyc n : Nat) → List (Nat × Nat)
  | [], cyc, n => if n = 0 then [] else [(cyc, n)]
  | c :: l, cyc, n => if n ≠ 0 ∧ 30000 < cyc + c then (cyc, n) :: greedy l c 1 else greedy l (cyc + c) (n + 1)

/-- The public shape of a command: cycles before the first step, cycles of a step, the steps, and elements in a step. -/
structure Shape where
  lead : Nat
  step : Nat
  steps : Nat
  per : Nat
deriving DecidableEq, Repr

/-- Steps of the first slice and of every later one: as many whole steps as fit, and at least one. -/
def Shape.fst (h : Shape) : Nat := max 1 ((30000 - h.lead) / h.step)
def Shape.nxt (h : Shape) : Nat := max 1 (30000 / h.step)
/-- Number of slices, and the steps of slice `j`. -/
def Shape.slices (h : Shape) : Nat := if h.steps ≤ h.fst then 1 else 1 + cdiv (h.steps - h.fst) h.nxt
def Shape.lo (h : Shape) (j : Nat) : Nat := if j = 0 then 0 else h.fst + (j - 1) * h.nxt
def Shape.hi (h : Shape) (j : Nat) : Nat := min h.steps (h.fst + j * h.nxt)
/-- Cycles of slice `j`. -/
def Shape.cycles (h : Shape) (j : Nat) : Nat := (h.hi j - h.lo j) * h.step + (if j = 0 then h.lead else 0)

/-- Shape of a command of a count (R288 to R293, R297, R299). -/
def qShape (x : Ctx) (c : List Nat) (ps : List QParam) : Shape :=
  let m := c.getD 0 0
  let n := Qop.count x (c.getD 1 0)
  let rounds (st : Nat) : Shape := ⟨1200, st, cdiv n 16, 16⟩
  let rate (r : Nat) : Shape := ⟨300, 1, cdiv n r, r⟩
  let hash := 4800 + 1200 * cdiv (Qop.msgLen x - 64) 64
  match x.op with
  | 0x72 => ⟨Config.qparamCost % 30000 + 1, 1, 0, 1⟩
  | 0x74 =>
    match ps with
    | [p, q] => ⟨600, 64 * p.k * (q.k + 1), n * p.n / 256, 256⟩
    | _ => ⟨600, 1, 0, 256⟩
  | 0x75 => rate (if x.sub < 4 then 8 else if m = 0 then 4 else 2)
  | 0x76 => if m = 0 then rate 1 else ⟨300, 2, n, 1⟩
  | 0x77 => rounds (if x.sub < 2 then 14400 else 900)
  | 0x78 => rounds (if x.sub = 1 then hash + 14400 else hash)
  | 0x7A => ⟨1200, 28800, 1, 1⟩
  | _ => rate 4

/-- Number of slices of a command. -/
def qSlices (x : Ctx) (c : List Nat) (ps : List QParam) : Nat :=
  match x.op, ps with
  | 0x73, [p] => (greedy (refreshSteps p) 0 0).length
  | _, _ => (qShape x c ps).slices

/-- Cycles of slice `j`. -/
def qCycles (x : Ctx) (q : QJob) (j : Nat) : Nat :=
  match x.op, q.pars with
  | 0x73, [p] => ((greedy (refreshSteps p) 0 0).getD j (0, 0)).1
  | _, _ => (qShape x q.cap q.pars).cycles j

/-- Elements of slice `j`: first, and first past the last. -/
def qSpan (x : Ctx) (q : QJob) (j : Nat) : Nat × Nat :=
  let h := qShape x q.cap q.pars
  let n := if x.op = 0x74 then h.steps * 256 else Qop.count x (q.cap.getD 1 0)
  (min n (h.lo j * h.per), min n (h.hi j * h.per))

/-- Items waiting for, or on, a Quisto unit. -/
def State.quistoLoad (s : State) (u : Nat) : Nat :=
  (s.cp.ctxs.filter fun y => match y.work with
    | .units e .. => decide (e = .quisto u)
    | _ => false).length

/-- The unit of a command (R280): the one named, or with UNIT = 2 the one with fewer items waiting. -/
def State.unitOf (s : State) (x : Ctx) : Nat :=
  if Qop.unit x = 2 then (if s.quistoLoad 1 < s.quistoLoad 0 then 1 else 0) else Qop.unit x

/-- A Quisto command other than SEAL_ALLOC, SEAL_FREE and KEY_UPDATE begins (R278 to R281). -/
def State.quistoBegin (s : State) (x : Ctx) : State :=
  match s.qCheck x with
  | .error (.status st d) => s.finish x.id st d
  | .error (.fail w e) => s.failCmd x w 0 e
  | .ok (t, c, ps) =>
    (t.withQst fun q => { q with jobs := q.jobs ++ [QJob.mk x.id c ps false 0 0] }).beginUnits x (.quisto (s.unitOf x)) (qSlices x c ps)

/-- The job of a Quisto command. -/
def State.qJob? (s : State) (id : CtxId) : Option QJob := s.qst.jobs.find? fun j => j.id = id

/-- The state with a command's job changed. -/
def State.updQJob (s : State) (id : CtxId) (f : QJob → QJob) : State :=
  s.withQst fun q => { q with jobs := q.jobs.map fun j => if j.id = id then f j else j }

/-- A Quisto command completes. -/
def State.endQuisto (s : State) (x : Ctx) (st : Nat) (d : W32) : State :=
  (s.withQst fun q => { q with jobs := q.jobs.filter fun j => j.id ≠ x.id }).finish x.id st d

end Sys2Proof.Machine
end

