-- ==== Sys2Proof/Machine/Refresh.lean ====
section
/-! DEFINITION. The arithmetic of a gate refresh (R285, R287): opening, one external product per value of the ciphertext, closing.  The gadget
digits and the digits of the key switch, whose exact choice the manual leaves open, are free functions held to their bases
(assumption log 75). -/

namespace Sys2Proof.Machine

/-- `n` bits of `i` reversed. -/
def bitRev (n i : Nat) : Nat := (List.range n).foldl (fun r j => r + i / 2 ^ j % 2 * 2 ^ (n - 1 - j)) 0

/-- The least primitive 2N-th root of unity modulo a prime, N a power of two (R285). -/
def rootOf (q n : Nat) : Nat := ((List.range q).find? fun g => powMod q 32 g n == q - 1).getD 0

/-- The exponent of ψ of value `i` of a polynomial in NTT form (R285). -/
def nttExp (n i : Nat) : Nat := 2 * bitRev n.log2 i + 1

/-- A polynomial in NTT form over a prime (R285). -/
def toNtt (q n : Nat) (a : List Nat) : List Nat :=
  let r := rootOf q n
  (List.range n).map fun i =>
    (List.range n).foldl (fun t j => t + a.getD j 0 * powMod q 32 r (nttExp n i * j % (2 * n))) 0 % q

/-- The coefficients of a polynomial in NTT form. -/
def ofNtt (q n : Nat) (v : List Nat) : List Nat :=
  let r := rootOf q n
  let inv := powMod q 32 (n % q) (q - 2)
  (List.range n).map fun j =>
    (List.range n).foldl (fun t i => t + v.getD i 0 * powMod q 32 r ((2 * n - nttExp n i * j % (2 * n)) % (2 * n))) 0 % q * inv % q

/-- A ring polynomial by its residues: for each prime of the basis, N coefficients. -/
abbrev RnsPoly := List (List Nat)

/-- X^a times a polynomial modulo X^N + 1, a below 2N. -/
def rotX (n a : Nat) (ps : List Nat) (p : RnsPoly) : RnsPoly :=
  p.zipIdx.map fun c => (List.range n).map fun i =>
    let t := (i + 2 * n - a) % (2 * n)
    if t < n then c.1.getD t 0 else (ps.getD c.2 1 - c.1.getD (t - n) 0) % ps.getD c.2 1

/-- Combines two polynomials residue by residue. -/
def rnsZip (ps : List Nat) (f : Nat → Nat → Nat → Nat) (a b : RnsPoly) : RnsPoly :=
  ps.zipIdx.map fun q => (List.range (a.getD q.2 []).length).map fun i =>
    f q.1 ((a.getD q.2 []).getD i 0) ((b.getD q.2 []).getD i 0)

/-- Sum and difference. -/
def rnsAdd (ps : List Nat) : RnsPoly → RnsPoly → RnsPoly := rnsZip ps fun q x y => (x + y) % q
def rnsSub (ps : List Nat) : RnsPoly → RnsPoly → RnsPoly := rnsZip ps fun q x y => (x + (q - y)) % q

/-- A value rounded to a multiple of 2^32 / 2N (R287, item 1): round(a × 2N / 2^32) mod 2N. -/
def roundTo2N (n a : Nat) : Nat := (a * (2 * n) + 2 ^ 31) / 2 ^ 32 % (2 * n)

/-- A gadget digit of a coefficient at a level: signed, of base 2^BG_LOG (R287, item 2). -/
def QParam.digit (p : QParam) (res : List Nat) (l : Nat) : Int :=
  (Config.gadgetDigit p.bytes res l % (2 ^ p.bgLog + 1) : Nat) - (2 ^ (p.bgLog - 1) : Nat)

/-- The digit polynomial of a level, over a prime. -/
def QParam.digits (p : QParam) (q l : Nat) (a : RnsPoly) : List Nat :=
  (List.range p.n).map fun j => (p.digit (a.map fun c => c.getD j 0) l % (q : Int)).toNat

/-- A polynomial of BSK: entry, row, column and prime in this order of nesting (R285). -/
def QParam.bskPoly (p : QParam) (bsk : List W8) (e row col k : Nat) : List Nat :=
  let at0 := (((e * (2 * p.l) + row) * 2 + col) * p.k + k) * p.n
  (List.range p.n).map fun i => natAt bsk (4 * (at0 + i)) 4

/-- One column of BSK_e ⊡ d (R287, item 2): the sum over the rows of digit polynomial times key polynomial. -/
def QParam.extCol (p : QParam) (bsk : List W8) (e col : Nat) (d : RnsPoly × RnsPoly) : RnsPoly :=
  p.primes.zipIdx.map fun q =>
    let rows := (List.range (2 * p.l)).map fun row =>
      let dig := toNtt q.1 p.n (p.digits q.1 (row % p.l) (if row < p.l then d.1 else d.2))
      let key := p.bskPoly bsk e row col q.2
      (List.range p.n).map fun i => dig.getD i 0 * key.getD i 0 % q.1
    ofNtt q.1 p.n ((List.range p.n).map fun i => rows.foldl (fun t r => t + r.getD i 0) 0 % q.1)

/-- Iteration `e` (R287, item 2): acc + BSK_e ⊡ (X^ã · acc − acc). -/
def QParam.iterate (p : QParam) (bsk : List W8) (ct : List W32) (acc : RnsPoly × RnsPoly) (e : Nat) : RnsPoly × RnsPoly :=
  let a := roundTo2N p.n (ct.getD e 0).toNat
  let diff (c : RnsPoly) : RnsPoly := rnsSub p.primes (rotX p.n a p.primes c) c
  let d := (diff acc.1, diff acc.2)
  (rnsAdd p.primes acc.1 (p.extCol bsk e 0 d), rnsAdd p.primes acc.2 (p.extCol bsk e 1 d))

/-- The accumulator after the opening (R287, item 1): X^(−b̃) times ⌊Q/8⌋ in every coefficient. -/
def QParam.opening (p : QParam) (ct : List W32) : RnsPoly × RnsPoly :=
  let Q := p.primes.foldl (· * ·) 1
  let v : RnsPoly := p.primes.map fun q => List.replicate p.n (Q / 8 % q)
  let b := roundTo2N p.n (ct.getD p.nlwe 0).toNat
  (p.primes.map fun _ => List.replicate p.n 0, rotX p.n ((2 * p.n - b) % (2 * p.n)) p.primes v)

/-- A value modulo Q from its residues. -/
def crt (ps res : List Nat) : Nat :=
  let Q := ps.foldl (· * ·) 1
  ps.zipIdx.foldl (fun t q => t + res.getD q.2 0 * powMod q.1 32 (Q / q.1 % q.1) (q.1 - 2) % q.1 * (Q / q.1)) 0 % Q

/-- From Q to 2^32 by rounding (R287, item 3). -/
def toQ32 (ps res : List Nat) : Nat :=
  let Q := ps.foldl (· * ·) 1
  (crt ps res * 2 ^ 32 * 2 + Q) / (2 * Q) % 2 ^ 32

/-- Coefficient 0 of the accumulator as a ciphertext of dimension N modulo 2^32 (R287, item 3). -/
def QParam.extract (p : QParam) (acc : RnsPoly × RnsPoly) : List Nat × Nat :=
  let res (c : RnsPoly) (i : Nat) : List Nat := c.map fun l => l.getD i 0
  let neg (l : List Nat) : List Nat := l.zipIdx.map fun x => (p.primes.getD x.2 1 - x.1) % p.primes.getD x.2 1
  ((List.range p.n).map fun i => toQ32 p.primes (if i = 0 then res acc.1 0 else neg (res acc.1 (p.n - i))),
    toQ32 p.primes (res acc.2 0))

/-- A digit of the key switch: of base 2^KS_LOG. -/
def QParam.ksDigit (p : QParam) (v l : Nat) : Int :=
  (Config.switchDigit p.bytes v l % (2 ^ (p.ksLog + 1)) : Nat) - (2 ^ p.ksLog : Nat)

/-- The key switch to dimension NLWE (R287, item 3): value `i` of the result. -/
def QParam.keySwitch (p : QParam) (ksk : List W8) (c : List Nat × Nat) (i : Nat) : W32 :=
  let sum : Int := (List.range p.n).foldl (fun t j => (List.range p.ksL).foldl (fun u l =>
    u + p.ksDigit (c.1.getD j 0) l * (natAt ksk (4 * ((j * p.ksL + l) * (p.nlwe + 1) + i)) 4 : Nat)) t) 0
  BitVec.ofInt 32 ((if i = p.nlwe then (c.2 : Int) else 0) - sum)

/-- A refresh (R287): the NLWE + 1 values of the result. -/
def QParam.refresh (p : QParam) (bsk ksk : List W8) (ct : List W32) : List W32 :=
  let acc := (List.range p.nlwe).foldl (p.iterate bsk ct) (p.opening ct)
  (List.range (p.nlwe + 1)).map (p.keySwitch ksk (p.extract acc))

end Sys2Proof.Machine
end

