-- ==== Sys2Proof/Machine/QuistoOps.lean ====
section
/-! DEFINITION. What each slice of a Quisto command reads, computes and writes, and how the command ends (R281, R284 to R299,
Table 13.7). -/

namespace Sys2Proof.Machine

/-- What a slice computed: the state with its draws made, its writes, and its refused elements with their highest status. -/
structure QOut where
  st : State
  writes : List (Nat × List W8)
  refused : Nat := 0
  top : Nat := 0

/-- How the computation of a slice went: outputs; an access that failed at a word; a status at once. -/
inductive QRes where
  | out (o : QOut)
  | fail (word : Nat) (e : Fail)
  | stop (st : Nat) (d : W32)

/-! ### Randomness (R288, R297) -/

/-- The unit's randomness is stopped (R296). -/
def State.entFailed (s : State) (u : Nat) : Bool := s.rbit .entStatus 0 u

/-- A uniform value below `m`: six free words, reduced. -/
def State.drawMod (s : State) (m : Nat) : Nat × State :=
  let step (a : Nat × State) : Nat × State :=
    let (v, t) := a.2.free
    (a.1 * 2 ^ 64 + v.toNat, t)
  let r := step (step (step (step (step (step (0, s))))))
  (r.1 % m, r.2)

/-- Values below each of a list of bounds. -/
def State.drawMods (s : State) : List Nat → List Nat × State
  | [] => ([], s)
  | m :: l =>
    let (v, t) := s.drawMod m
    let (vs, u) := t.drawMods l
    (v :: vs, u)

/-- Generate requests counted for a unit's DRBG (R295). -/
def State.drew (s : State) (u n : Nat) : State := s.withQst fun q => { q with reqs := q.reqs.upd u (· + n) }

/-! ### Gates (R286, R287) -/

/-- α, β and μ of a gate (Table 13.4), modulo 2^32; `none` for a reserved code. -/
def gateCoef (g : Nat) : Option (Nat × Nat × Nat) :=
  let neg (n : Nat) : Nat := 2 ^ 32 - n
  match g with
  | 0 => some (1, 0, 0)
  | 1 => some (1, 1, neg (2 ^ 29))
  | 2 => some (neg 1, neg 1, 2 ^ 29)
  | 3 => some (1, 1, 2 ^ 29)
  | 4 => some (neg 1, neg 1, neg (2 ^ 29))
  | 5 => some (2, 2, 2 ^ 30)
  | 6 => some (neg 2, neg 2, neg (2 ^ 30))
  | 7 => some (neg 1, 1, neg (2 ^ 29))
  | 8 => some (neg 1, 0, 0)
  | _ => none

/-- An entry of LIST is one GATE_BATCH accepts: its other bits zero, a defined gate, both indices below IN_COUNT (R286). -/
def gateEntryOk (n v : Nat) : Bool :=
  fld v 4 28 == 0 && v / 2 ^ 96 == 0 && (gateCoef (fld v 0 4)).isSome && decide (fld v 32 32 < n) && decide (fld v 64 32 < n)

/-- Combines two ciphertexts (R286): every value by α and β, and μ on the last. -/
def gateMix (c : Nat × Nat × Nat) (a b : List Nat) : List W32 :=
  (List.range a.length).map fun i =>
    w32 (c.1 * a.getD i 0 + c.2.1 * b.getD i 0 + (if i + 1 = a.length then c.2.2 else 0))

/-- The last slice of a GATE_BATCH: every output. -/
def State.gateOut (s : State) (x : Ctx) (p : QParam) : QRes :=
  let n := Qop.count x 0
  let ct (i : Nat) : Except Fail (List Nat) := s.qNats x.fn (Qop.off x 6 + i * p.pitch) 4 (p.nlwe + 1)
  match s.qNats x.fn (Qop.off x 4) 16 n, s.qRead x.fn (Qop.off x 10) p.bsk, s.qRead x.fn (Qop.off x 12) p.ksk with
  | .ok l, .ok bsk, .ok ksk =>
    match mapE (fun v => match ct (fld v 32 32), ct (fld v 64 32) with
        | .ok a, .ok b => .ok (gateMix ((gateCoef (fld v 0 4)).getD (0, 0, 0)) a b)
        | .error e, _ => .error e
        | _, .error e => .error e) l with
    | .error e => .fail 6 e
    | .ok cs =>
      .out { st := s, writes := cs.zipIdx.map fun c => (Qop.off x 8 + c.2 * p.pitch,
        ((p.refresh bsk ksk c.1).map fun v => toBytes 4 v.toNat).flatten) }
  | .error e, _, _ => .fail 4 e
  | _, .error e, _ => .fail 10 e
  | _, _, .error e => .fail 12 e

/-- Slice `k` of GATE_BATCH: the first checks LIST, the last writes the outputs. -/
def State.gateSlice (s : State) (x : Ctx) (p : QParam) (first last : Bool) : QRes :=
  let n := Qop.count x 0
  match (if first then s.qNats x.fn (Qop.off x 4) 16 n else .ok []) with
  | .error e => .fail 4 e
  | .ok l =>
    if l.any fun v => !gateEntryOk (fld (x.w 14) 0 24) v then .stop stBadPacket (badDetail 4 0 7)
    else if last then s.gateOut x p
    else .out { st := s, writes := [] }

/-! ### Base conversion (R288) -/

/-- F(v)_j (R288, item 3). -/
def convSum (q : List Nat) (p : Nat) (v : List Nat) : Nat :=
  let Q := q.foldl (· * ·) 1
  ((List.range q.length).foldl (fun a i =>
    let qi := q.getD i 1
    let inv := powMod qi 32 (Q / qi % qi) (qi - 2)
    a + v.getD i 0 * inv % qi * (Q / qi % p)) 0) % p

/-- Address of coefficient `i` of polynomial `t` for prime `j` of `k`. -/
def coefAt (base n k t j i : Nat) : Nat := base + ((t * k + j) * n + i) * 4

/-- One chunk of 256 coefficients of BASE_CONVERT: draws the masks and computes the residues. -/
def State.convChunk (s : State) (x : Ctx) (p q : QParam) (c : Nat) : Except Fail (State × List (Nat × List W8)) :=
  let t := c / (p.n / 256)
  let i0 := c % (p.n / 256) * 256
  match mapE (fun j => s.qNats x.fn (coefAt (Qop.off x 4) p.n p.k t j i0) 4 256) (List.range p.k) with
  | .error e => .error e
  | .ok cols =>
    let one (a : State × List (List Nat)) (i : Nat) : State × List (List Nat) :=
      let (r, u) := a.1.drawMods p.primes
      let xm := (List.range p.k).map fun k => ((cols.getD k []).getD i 0 + r.getD k 0) % p.primes.getD k 1
      (u, a.2 ++ [q.primes.map fun m => (convSum p.primes m xm + (m - convSum p.primes m r)) % m])
    let (u, ys) := (List.range 256).foldl one (s, [])
    .ok (u, (List.range q.k).map fun j =>
      (coefAt (Qop.off x 6) p.n q.k t j i0, (ys.map fun y => toBytes 4 (y.getD j 0)).flatten))

/-- Chunks of a slice in order. -/
def State.convChunks (s : State) (x : Ctx) (p q : QParam) : List Nat → Except Fail (State × List (Nat × List W8))
  | [] => .ok (s, [])
  | c :: l =>
    match s.convChunk x p q c with
    | .error e => .error e
    | .ok (t, w) => match t.convChunks x p q l with
      | .error e => .error e
      | .ok (u, ws) => .ok (u, w ++ ws)

/-- Polynomials of BASE_CONVERT with a residue at or above its prime (Table 13.7). -/
def State.convRefused (s : State) (x : Ctx) (p : QParam) : Except Fail Nat :=
  match mapE (fun t => mapE (fun j => s.qNats x.fn (coefAt (Qop.off x 4) p.n p.k t j 0) 4 p.n) (List.range p.k))
      (List.range (Qop.count x 0)) with
  | .error e => .error e
  | .ok ls => .ok (ls.filter fun pol => pol.zipIdx.any fun c => c.1.any fun v => decide (p.primes.getD c.2 1 ≤ v)).length

/-! ### Shares (R289, R299) -/

/-- C of SHARE_OP for elements `lo` to `hi` − 1. -/
def State.pubC (s : State) (x : Ctx) (lo hi : Nat) : Except Fail (List Nat) :=
  if Qop.bcast x then
    match s.qNats x.fn (Qop.off x 8) 8 1 with
    | .ok l => .ok (List.replicate (hi - lo) (l.getD 0 0))
    | .error e => .error e
  else s.qNats x.fn (Qop.off x 8 + 8 * lo) 8 (hi - lo)

/-- Elements of a SHARES object. -/
def State.shareElts (s : State) (x : Ctx) (w lo hi : Nat) : Except Fail (List Nat) :=
  s.qNats x.fn (Qop.off x w + 64 + 8 * lo) 8 (hi - lo)

/-- Triples `lo` to `hi` − 1 of a TRIPLES object whose first is `base`, from number FIRST. -/
def State.tripleElts (s : State) (x : Ctx) (w base lo hi : Nat) : Except Fail (List (Nat × Nat × Nat)) :=
  match s.qNats x.fn (Qop.off x w + 64 + 24 * (Qop.first x - base + lo)) 8 (3 * (hi - lo)) with
  | .ok l => .ok ((List.range (hi - lo)).map fun i => (l.getD (3 * i) 0, l.getD (3 * i + 1) 0, l.getD (3 * i + 2) 0))
  | .error e => .error e

/-- Public values of a command that p₆₁ refuses (Table 13.7): of C, an element's own value or pair; of SRC. -/
def State.pubRefused (s : State) (x : Ctx) (m n : Nat) : Except Fail Nat :=
  if m = 0 then .ok 0
  else
    let bad (v : Nat) : Bool := decide (modOf 1 ≤ v)
    if x.op = 0x7C then
      match s.qNats x.fn (Qop.off x 4) 8 n with
      | .ok l => .ok (l.filter bad).length
      | .error e => .error e
    else if x.sub = 5 then
      match s.qNats x.fn (Qop.off x 8) 8 (2 * n) with
      | .ok l => .ok ((List.range n).filter fun i => bad (l.getD (2 * i) 0) || bad (l.getD (2 * i + 1) 0)).length
      | .error e => .error e
    else if x.sub = 2 ∨ x.sub = 4 then
      match s.pubC x 0 n with
      | .ok l => .ok (l.filter bad).length
      | .error e => .error e
    else .ok 0

/-- Values as 8-byte elements at an address. -/
def eights (a : Nat) (l : List Nat) : List (Nat × List W8) := if l = [] then [] else [(a, (l.map (toBytes 8)).flatten)]

/-- SHARE_OP over elements `lo` to `hi` − 1 (Table 13.5); SUM writes its one element in the last slice. -/
def State.shareSlice (s : State) (x : Ctx) (j : QJob) (lo hi : Nat) (last : Bool) : QRes :=
  let m := j.cap.getD 0 0
  let n := j.cap.getD 1 0
  let M := modOf m
  let z := Qop.off x 10 + 64
  let put (l : List Nat) : QRes := .out { st := s, writes := eights (z + 8 * lo) l }
  match x.sub with
  | 5 =>
    match s.tripleElts x 6 (j.cap.getD 3 0) lo hi, s.qNats x.fn (Qop.off x 8 + 16 * lo) 8 (2 * (hi - lo)) with
    | .ok ts, .ok de => put (ts.zipIdx.map fun t =>
        let (a, b, c) := t.1
        let d := de.getD (2 * t.2) 0
        let e := de.getD (2 * t.2 + 1) 0
        (c + d * b + e * a + (if Qop.b8 x = 0 then d * e else 0)) % M)
    | .error e, _ => .fail 6 e
    | _, .error e => .fail 8 e
  | 3 =>
    if !last then .out { st := s, writes := [] }
    else match s.shareElts x 4 0 n with
      | .ok l => .out { st := s, writes := eights z [l.foldl (· + ·) 0 % M] }
      | .error e => .fail 4 e
  | sub =>
    match s.shareElts x 4 lo hi with
    | .error e => .fail 4 e
    | .ok xs =>
      if sub < 2 then
        match s.shareElts x 6 lo hi with
        | .ok ys => put (xs.zipIdx.map fun e => (e.1 + (if sub = 0 then ys.getD e.2 0 else M - ys.getD e.2 0)) % M)
        | .error e => .fail 6 e
      else match s.pubC x lo hi with
        | .ok cs => put (xs.zipIdx.map fun e =>
            if sub = 2 then (if Qop.b8 x = 0 then (e.1 + cs.getD e.2 0) % M else e.1) else cs.getD e.2 0 * e.1 % M)
        | .error e => .fail 8 e

/-- The 32 bytes of the key of a MASK_KEY object. -/
def State.keyOfObj (s : State) (x : Ctx) (w : Nat) : Except Fail (List W8) := s.qRead x.fn (Qop.off x w + 64) 32

/-- TRIPLE_GEN over elements `lo` to `hi` − 1 (R290). -/
def State.tripleSlice (s : State) (x : Ctx) (j : QJob) (lo hi : Nat) : QRes :=
  match s.keyOfObj x 4 with
  | .error e => .fail 4 e
  | .ok key =>
    let l := (List.range (hi - lo)).map fun i => tripleOf key (j.cap.getD 0 0) (j.cap.getD 2 0) (Qop.index x + lo + i)
    .out { st := s, writes := eights (Qop.off x 8 + 64 + 24 * lo) (l.map fun t => [t.1, t.2.1, t.2.2]).flatten }

/-- SHARE_EXPORT over elements `lo` to `hi` − 1 (R299). -/
def State.exportSlice (s : State) (x : Ctx) (j : QJob) (lo hi : Nat) : QRes :=
  let m := j.cap.getD 0 0
  let M := modOf m
  match s.shareElts x 4 lo hi with
  | .error e => .fail 4 e
  | .ok xs =>
    if x.sub = 0 then
      match s.keyOfObj x 6 with
      | .error e => .fail 6 e
      | .ok key => .out { st := s, writes := eights (Qop.off x 10 + 8 * lo) (xs.zipIdx.map fun e =>
          (e.1 + maskWord key m (j.cap.getD 2 0) (Qop.index x + lo + e.2)) % M) }
    else match s.shareElts x 6 lo hi, s.tripleElts x 8 (j.cap.getD 3 0) lo hi with
      | .ok ys, .ok ts => .out { st := s, writes := eights (Qop.off x 10 + 16 * lo) (xs.zipIdx.map fun e =>
          let t := ts.getD e.2 (0, 0, 0)
          [(e.1 + M - t.1) % M, (ys.getD e.2 0 + M - t.2.1) % M]).flatten }
      | .error e, _ => .fail 6 e
      | _, .error e => .fail 8 e

/-- SHARE_IMPORT over elements `lo` to `hi` − 1 (R299). -/
def State.importSlice (s : State) (x : Ctx) (j : QJob) (lo hi : Nat) : QRes :=
  let m := j.cap.getD 0 0
  let M := modOf m
  match s.qNats x.fn (Qop.off x 4 + 8 * lo) 8 (hi - lo), s.keyOfObj x 6 with
  | .ok vs, .ok key => .out { st := s, writes := eights (Qop.off x 10 + 64 + 8 * lo) (vs.zipIdx.map fun e =>
      (e.1 + M - maskWord key m (1 - j.cap.getD 2 0) (Qop.index x + lo + e.2)) % M) }
  | .error e, _ => .fail 4 e
  | _, .error e => .fail 6 e

/-- QRNG_FILL over elements `lo` to `hi` − 1 (R297). -/
def State.qrngSlice (s : State) (x : Ctx) (u lo hi : Nat) : QRes :=
  let n := hi - lo
  if x.sub = 0 then
    let (vs, t) := s.drawMods (List.replicate n (modOf (Qop.b8 x)))
    .out { st := t.drew u n, writes := eights (Qop.off x 4 + 64 + 8 * lo) vs }
  else
    let (vs, t) := s.drawMods (List.replicate n (curveOrder (Qop.b8 x) - 1))
    .out { st := t.drew u n, writes := if n = 0 then [] else [(Qop.off x 4 + 64 + 32 * lo, (vs.map fun v => toBytes 32 (v + 1)).flatten)] }

/-! ### Curves (R292, R294, R298) -/

/-- Scalar `i` of a curve command from operand word `w`: sealed, public, or the broadcast one. -/
def State.scalarAt (s : State) (x : Ctx) (w i : Nat) (isSealed : Bool) : Except Fail Nat :=
  let k := if Qop.bcast x && x.op == 0x77 then 0 else i
  match s.qRead x.fn (Qop.off x w + (if isSealed then 64 else 0) + 32 * k) 32 with
  | .ok b => .ok (ofBytes b)
  | .error e => .error e

/-- Status bytes and counts of a run of elements of a curve command. -/
def curveWrites (x : Ctx) (ow sw lo : Nat) (rs : List (PtRec × Nat)) : List (Nat × List W8) :=
  (if rs = [] then [] else [(Qop.off x ow + 64 * lo, (rs.map (·.1)).flatten)]) ++
  (if x.a sw = 0 ∨ rs = [] then [] else [(Qop.off x sw + lo, rs.map fun r => BitVec.ofNat 8 r.2)])

/-- CURVE_OP over elements `lo` to `hi` − 1 (R292, Table 13.7). -/
def State.curveSlice (s : State) (x : Ctx) (lo hi : Nat) : QRes :=
  let rec_ (use : Bool) (w i : Nat) : Except (Nat × Fail) PtRec :=
    if !use then .ok []
    else match s.qRead x.fn (Qop.off x w + 64 * i) 64 with
      | .ok b => .ok b
      | .error e => .error (w, e)
  let one (i : Nat) : Except (Nat × Fail) (PtRec × Nat) := do
    let p ← rec_ (x.sub ≠ 1) 4 i
    let q ← rec_ (x.sub = 2) 6 i
    let k ← (if x.sub < 2 then
        match s.scalarAt x 6 i (Qop.b9 x == 0) with
        | .ok v => .ok v
        | .error e => .error (6, e)
      else .ok 0)
    .ok (curveElt x.sub (Qop.b8 x) p q k)
  match (List.range (hi - lo)).mapM (fun i => one (lo + i)) with
  | .error (w, e) => .fail w e
  | .ok rs =>
    let bad := rs.filter fun r => r.2 ≠ 0
    .out { st := s, writes := curveWrites x 8 10 lo rs, refused := bad.length, top := bad.foldl (fun m r => max m r.2) 0 }

/-- HASH_TO_CURVE over elements `lo` to `hi` − 1 (R292). -/
def State.hashSlice (s : State) (x : Ctx) (j : QJob) (lo hi : Nat) : QRes :=
  match s.qRead x.fn (Qop.off x 6 + 1) (j.cap.getD 2 0) with
  | .error e => .fail 6 e
  | .ok dst =>
    let one (i : Nat) : Except (Nat × Fail) (PtRec × Nat) :=
      match s.qRead x.fn (Qop.off x 4 + Qop.msgPitch x * i) (Qop.msgLen x) with
      | .error e => .error (4, e)
      | .ok m =>
        let p := toBytes 64 (Config.hashToCurve (Qop.b8 x) m dst).toNat
        if x.sub = 0 then .ok (p, 0)
        else match s.scalarAt x 10 i true with
          | .ok k => .ok (ptMul (Qop.b8 x) k p, 0)
          | .error e => .error (10, e)
    match (List.range (hi - lo)).mapM (fun i => one (lo + i)) with
    | .error (w, e) => .fail w e
    | .ok rs => .out { st := s, writes := curveWrites x 8 12 lo rs }

/-- KEY_AGREE (R298): the edge inputs of PEER are decided before (Table 13.7). -/
def State.agreeSlice (s : State) (x : Ctx) (u : Nat) : QRes :=
  match s.scalarAt x 4 0 true, s.qRead x.fn (Qop.off x 6) 64 with
  | .ok k, .ok peer =>
    .out { st := s.drew u 1, writes := [(Qop.off x 8 + 64, agreeKey (Qop.b8 x) k (Qop.b9 x) peer ++ List.replicate 24 0)] }
  | .error e, _ => .fail 4 e
  | _, .error e => .fail 6 e

/-! ### Edge inputs of the other commands (R294) -/

/-- Refused elements and their status, found over the whole input in the first slice. -/
def State.qScan (s : State) (x : Ctx) (j : QJob) : Except (Nat × Fail) (Nat × Nat) :=
  match x.op with
  | 0x74 =>
    match j.pars with
    | p :: _ => match s.convRefused x p with
      | .ok n => .ok (n, stRange)
      | .error e => .error (4, e)
    | [] => .ok (0, 0)
  | 0x75 => match s.pubRefused x (j.cap.getD 0 0) (j.cap.getD 1 0) with
    | .ok n => .ok (n, stRange)
    | .error e => .error (8, e)
  | 0x7C => match s.pubRefused x (j.cap.getD 0 0) (j.cap.getD 1 0) with
    | .ok n => .ok (n, stRange)
    | .error e => .error (4, e)
  | 0x7A => match s.qRead x.fn (Qop.off x 6) 64 with
    | .ok p => .ok (if isIdRec p then (1, stRange) else if ptOk (Qop.b8 x) p then (0, 0) else (1, stNotOnCurve))
    | .error e => .error (6, e)
  | _ => .ok (0, 0)

/-! ### Output objects (R278) -/

/-- The output object of a command: its address word and its header when completed. -/
def qObject (x : Ctx) (j : QJob) : Option (Nat × ObjHdr) :=
  let m := j.cap.getD 0 0
  let n := j.cap.getD 1 0
  let h (t : ObjType) (a c : Nat) : ObjHdr := { type := t, attr := a, count := c, done := true, gen := 0 }
  match x.op with
  | 0x75 => some (10, h .shares m (if x.sub = 3 then 1 else n))
  | 0x76 =>
    let i := Qop.index x
    some (8, { h .triples m n with base := i, nextOpen := i, nextClose := i })
  | 0x79 => some (4, h (if x.sub = 0 then .shares else .scalar) m n)
  | 0x7A => some (8, { h .maskKey m 1 with role := Qop.b9 x })
  | 0x7C => some (10, h .shares m n)
  | _ => none

/-- Writes the header of a command's output object. -/
def State.putObject (s : State) (x : Ctx) (j : QJob) (done : Bool) : State × Option Fail :=
  match qObject x j with
  | some (w, h) => s.putHdr x.fn (Qop.off x w) { h with done := done }
  | none => (s, none)

/-- The word of a command's main output. -/
def qOutWord (x : Ctx) : Nat :=
  match x.op with
  | 0x74 => 6
  | 0x79 => 4
  | 0x73 => 8
  | 0x76 => 8
  | 0x77 => 8
  | 0x78 => 8
  | 0x7A => 8
  | _ => 10

/-! ### Stack bytes of a slice (R281) -/

/-- Stack bytes of elements `lo` to `hi` − 1 at a stride from an operand. -/
def span (x : Ctx) (w base stride lo hi : Nat) : Nat := stackBytes (addrAdd (x.a w) (base + lo * stride)) ((hi - lo) * stride)

/-- Stack bytes of slice `k` of a GATE_BATCH: LIST in the first, the BSK entries of its iterations, and in the last the ciphertexts,
KSK and the outputs. -/
def gateBytes (x : Ctx) (p : QParam) (k : Nat) (first last : Bool) : Nat :=
  let g := greedy (refreshSteps p) 0 0
  let before := (g.take k).foldl (fun n e => n + e.2) 0
  let here := (g.getD k (0, 0)).2
  -- micro-step 0 is the opening and the last the closing
  let its := here - b01 (before = 0) - b01 last
  (if first then span x 4 0 16 0 (Qop.count x 0) else 0) + its * (16 * p.l * p.k * p.n) +
  (if last then stackBytes (x.a 12) p.ksk + Qop.count x 0 * 3 * p.pitch else 0)

/-- Stack bytes that the elements of a slice take. -/
def qBytes (x : Ctx) (j : QJob) (k lo hi : Nat) (first last : Bool) : Nat :=
  let fst (b : Nat) : Nat := if first then b else 0
  let hdr := 64 * b01 first + 64 * b01 last
  match x.op with
  | 0x72 => stackBytes (x.a 4) 64
  | 0x73 =>
    match j.pars with
    | p :: _ => gateBytes x p k first last
    | [] => 0
  | 0x74 =>
    match j.pars with
    | [p, q] => (hi - lo) / 256 * (1024 * (p.k + q.k))
    | _ => 0
  | 0x75 =>
    let c := if Qop.bcast x then span x 8 0 8 0 1 else span x 8 0 8 lo hi
    let xs := span x 4 64 8 lo hi
    let z := span x 10 64 8 lo hi
    hdr + (match x.sub with
      | 5 => fst 64 + span x 6 (64 + 24 * (Qop.first x - j.cap.getD 3 0)) 24 lo hi + span x 8 0 16 lo hi + z
      | 3 => fst 64 + xs + (if last then 64 else 0)
      | 0 => fst 128 + xs + span x 6 64 8 lo hi + z
      | 1 => fst 128 + xs + span x 6 64 8 lo hi + z
      | _ => fst 64 + xs + c + z)
  | 0x76 => hdr + fst 128 + span x 8 64 24 lo hi
  | 0x77 =>
    let sc := if Qop.b9 x = 0 then 64 else 0
    (if x.sub = 1 then 0 else span x 4 0 64 lo hi) +
    (if x.sub = 2 then span x 6 0 64 lo hi
     else if x.sub < 2 then (if Qop.b9 x = 0 then fst 64 else 0) + (if Qop.bcast x then span x 6 sc 32 0 1 else span x 6 sc 32 lo hi) else 0) +
    span x 8 0 64 lo hi + (if x.a 10 = 0 then 0 else span x 10 0 1 lo hi)
  | 0x78 =>
    fst (stackBytes (x.a 6) (1 + j.cap.getD 2 0)) + (hi - lo) * stackBytes (x.a 4) (Qop.msgLen x) +
    (if x.sub = 1 then fst 64 + span x 10 64 32 lo hi else 0) + span x 8 0 64 lo hi + (if x.a 12 = 0 then 0 else span x 12 0 1 lo hi)
  | 0x79 => hdr + span x 4 64 (if x.sub = 0 then 8 else 32) lo hi
  | 0x7A => hdr + 128 + stackBytes (x.a 6) 64 + 64
  | 0x7B =>
    span x 4 64 8 lo hi + (if x.sub = 0 then fst (64 + 128) + span x 10 0 8 lo hi
      else fst (3 * 64) + span x 6 64 8 lo hi + span x 8 (64 + 24 * (Qop.first x - j.cap.getD 3 0)) 24 lo hi + span x 10 0 16 lo hi)
  | _ => hdr + fst 128 + span x 4 0 8 lo hi + span x 10 64 8 lo hi

/-! ### One slice -/

/-- The computation of a slice. -/
def State.qCompute (s : State) (x : Ctx) (j : QJob) (u lo hi : Nat) (first last : Bool) : QRes :=
  match x.op with
  | 0x73 => match j.pars with
    | p :: _ => s.gateSlice x p first last
    | [] => .out { st := s, writes := [] }
  | 0x74 => match j.pars with
    | [p, q] => match s.convChunks x p q ((List.range ((hi - lo) / 256)).map (lo / 256 + ·)) with
      | .ok (t, w) => .out { st := t.drew u (hi - lo), writes := w }
      | .error e => .fail 4 e
    | _ => .out { st := s, writes := [] }
  | 0x75 => s.shareSlice x j lo hi last
  | 0x76 => s.tripleSlice x j lo hi
  | 0x77 => s.curveSlice x lo hi
  | 0x78 => s.hashSlice x j lo hi
  | 0x79 => s.qrngSlice x u lo hi
  | 0x7A => s.agreeSlice x u
  | 0x7B => s.exportSlice x j lo hi
  | 0x7C => s.importSlice x j lo hi
  | _ => .out { st := s, writes := [] }

/-- A command draws from its unit's DRBG (R296). -/
def qDraws (op : Nat) : Bool := op == 0x74 || op == 0x79 || op == 0x7A

/-- A command whose elements stand beside refused ones (R294). -/
def isCurve (op : Nat) : Bool := op == 0x77 || op == 0x78

/-- Writes of a slice in order. -/
def State.qWrites (s : State) (fn : Nat) : List (Nat × List W8) → State × Option Fail
  | [] => (s, none)
  | (a, b) :: l =>
    match s.qWrite fn a b with
    | (t, none) => State.qWrites t fn l
    | (t, some e) => (t, some e)

/-- The status of a command whose last slice has passed (R294): ST_DONE with COUNT, or the highest element status with the number
of refused elements. -/
def qStatus (x : Ctx) (j : QJob) : Nat × W32 :=
  if j.refused = 0 then (stDone, w32 (Qop.count x (j.cap.getD 1 0)))
  else (j.st, w32 (sat 65535 j.refused))

/-- What a Quisto slice did. -/
inductive QEnding where
  | wait (s : State)
  | next (s : State)
  | failed (s : State) (word : Nat) (e : Fail)
  | ended (s : State) (st : Nat) (d : W32)

/-- After a slice's outputs are written: the last one completes the output object and the command. -/
def State.qAfter (s : State) (x : Ctx) (j : QJob) (last : Bool) : QEnding :=
  if !last then .next s
  else if j.refused = 0 ∨ isCurve x.op then
    match s.putObject x j true with
    | (t, some e) => .failed t (qOutWord x) e
    | (t, none) => .ended t (qStatus x j).1 (qStatus x j).2
  else .ended s (qStatus x j).1 (qStatus x j).2

/-- QPARAM_SET's slice (R284). -/
def State.qparamSlice (s : State) (x : Ctx) : QEnding :=
  match s.qRead x.fn (Qop.off x 4) 64 with
  | .error e => .failed s 4 e
  | .ok b =>
    match qparam? b with
    | none => .ended s stBadPacket (badDetail 4 0 7)
    | some p => .ended (s.withQst fun q => { q with params := q.params.set (x.ten, Qop.slot x) (some p) }) stDone 0

/-- The inputs a command reads, by operand word and length: objects whole, as their headers give them, and ordinary operands. -/
def State.qInputs (s : State) (x : Ctx) (j : QJob) : List (Nat × Nat) :=
  let n := Qop.count x 0
  let plain (w : Nat) : Nat :=
    match x.op, w with
    | 0x72, 4 => 64
    | 0x73, 4 => 16 * n
    | 0x73, 10 => (j.pars.head?.map (·.bsk)).getD 0
    | 0x73, 12 => (j.pars.head?.map (·.ksk)).getD 0
    | 0x75, 8 => if x.sub = 5 then 16 * n else if x.sub = 2 ∨ x.sub = 4 then (if Qop.bcast x then 8 else 8 * n) else 0
    | 0x77, 4 => if x.sub = 1 then 0 else 64 * n
    | 0x77, 6 => if x.sub = 2 then 64 * n else if x.sub < 2 ∧ Qop.b9 x ≠ 0 then (if Qop.bcast x then 32 else 32 * n) else 0
    | 0x78, 4 => if n = 0 then 0 else (n - 1) * Qop.msgPitch x + Qop.msgLen x
    | 0x78, 6 => 1 + j.cap.getD 2 0
    | 0x7A, 6 => 64
    | 0x7C, 4 => 8 * n
    | _, _ => 0
  ([4, 6, 8, 10, 12].filter fun w => w ≠ qOutWord x ∧ isDev (x.a w)).filterMap fun w =>
    match s.hdr? x.fn (Qop.off x w) with
    | some h => some (w, objBytes h.type h.count)
    | none => if plain w = 0 then none else some (w, plain w)

/-- A slice that has been paid for: marks the output object incomplete in the first slice, computes, and writes what is not held back
by a refusal (R278, R281, R294). -/
def State.qSliceRun (s : State) (x : Ctx) (j : QJob) (u k lo hi : Nat) (last : Bool) : QEnding :=
  let first := decide (k = 0)
  if qDraws x.op && s.entFailed u then .ended s stFault 0xE01
  else if x.op = 0x72 then s.qparamSlice x
  else
    match (if first then s.qScan x j else .ok (j.refused, j.st)) with
    | .error (w, e) => .failed s w e
    | .ok (n, st) =>
      let j1 : QJob := { j with refused := n, st := if n = 0 then 0 else st, started := true }
      match s.qCompute x j1 u lo hi first last with
      | .fail w e => .failed s w e
      | .stop st d => .ended s st d
      | .out o =>
        let t0 : State × Option Fail := if first then o.st.putObject x j1 false else (o.st, none)
        match t0 with
        | (t, some e) => .failed t (qOutWord x) e
        | (t, none) =>
          let j2 : QJob := { j1 with refused := j1.refused + o.refused, st := max j1.st o.top }
          let hold := decide (j1.refused ≠ 0) && !isCurve x.op
          let wait := if hold then none else o.writes.findSome? fun w => t.extHeld x.fn w.1 w.2.length
          match (match wait with
            | some c => (s, some (Fail.held c))
            | none => if hold then (t, none) else t.qWrites x.fn o.writes) with
          | (v, some e) => .failed v (qOutWord x) e
          | (v, none) => (v.updQJob x.id fun _ => j2).qAfter x j2 last

/-- Slice `k` of a Quisto command on unit `u` (R281): paid for as one request stream, then run. -/
def State.qSlice (s : State) (x : Ctx) (j : QJob) (u k total : Nat) : QEnding :=
  let (lo, hi) := qSpan x j k
  let last := decide (k + 1 = total)
  match s.pay x (qBytes x j k lo hi (k = 0) last) with
  | (t, false) => .wait t
  | (t, true) =>
    -- the first slice meets what is stored in the lines of every input
    let t := if k = 0 then (t.qInputs x j).foldl (fun v e => v.meetOp x.fn (x.a e.1) e.2) t else t
    t.qSliceRun x j u k lo hi last

end Sys2Proof.Machine
end

