-- ==== Sys2Proof/Machine/KeyStore.lean ====
section
/-! DEFINITION. SEAL_ALLOC and SEAL_FREE, the key store and KEY_UPDATE, and the health of the entropy sources (R276, R295, R296,
R300 to R302). -/

namespace Sys2Proof.Machine

/-! ### SEAL_ALLOC and SEAL_FREE (R276) -/

/-- The allocation of a SEAL_ALLOC: claims as PAGE_ALLOC's (R213), then one slice a page at the sealed-page port. -/
def State.sealGo (s : State) (x : Ctx) : State :=
  let n := fld (x.w 2) 0 16
  let idx := fld (x.w 3) 0 15
  if s.entsTaken x.fn idx n then s.finish x.id stRefused 1
  else match s.allocPages x.id (.map x.fn idx true) (allocPart x) (x.a 4) (bit (x.w 2) 20) n with
    | .error d => s.finish x.id stNoResource d
    | .ok (t, _) =>
      (t.beginUnits x (.sealPort 0) n).updCtx x.id fun y => { y with work := .units (.sealPort 0) n 0 0 (t.claimsOf x.id) 0 }

/-- SEAL_ALLOC: while a KEY_UPDATE runs it waits (R301). -/
def State.sealAlloc (s : State) (x : Ctx) : State := if s.qst.update.isSome then s.beginWait x 1 0 else s.sealGo x

/-- The next entry of a SEAL_ALLOC whose page is HELD and not yet sealed. -/
def State.sealNext (s : State) (x : Ctx) : Option Nat :=
  (List.range (fld (x.w 2) 0 16)).find? fun i =>
    let e := s.mem.maps.get (x.fn, fld (x.w 3) 0 15 + i)
    e.claimed && e.sealed && (s.mem.pages.get e.page).st == .held

/-- One page of a SEAL_ALLOC: every line becomes the encryption of zero under the tenant's key, and its entry VALID and SEALED. -/
def State.sealUnit (s : State) (x : Ctx) : UnitRes :=
  match s.sealNext x with
  | none => .wait s
  | some i =>
    let k := (x.fn, fld (x.w 3) 0 15 + i)
    let p := (s.mem.maps.get k).page
    -- a page of a stopped island, or with a line that waits, is sealed later (R17, R219)
    if !s.clockOn (16 + pageIsland p) then .wait (s.heldUp x 1)
    else if (s.mem.retry.any fun r => decide (r.line / 32768 = p)) || s.mem.quiesce.contains (p / 768) then .wait (s.heldUp x 2)
    else s.unitGate x pageSize fun t =>
      .done (((t.dropSealed p).withMem fun m =>
        { m with
          bytes := memZero m.bytes (pageSize * p) pageSize
          poison := m.poison.filter fun l => l / 32768 ≠ p
          plist := m.plist.filter fun l => l / 32768 ≠ p
          maps := m.maps.upd k fun e => { e with valid := true, claimed := false } }).withQst fun q =>
        { q with pgen := q.pgen.set p (t.sealGen x.fn) })

/-- A SEAL_ALLOC whose pages are all sealed writes LIST_ADDR and completes (R213). -/
def State.sealDone (s : State) (x : Ctx) (waited : Nat) : State :=
  let n := fld (x.w 2) 0 16
  let la := x.a 6
  let list := ((s.entPages x.fn (fld (x.w 3) 0 15) n).map fun p => toBytes 4 p).flatten
  let done (t : State) := t.finish x.id stDone (w32 (n % 65536 + sat 65535 waited * 65536))
  if la = 0 then done s
  else match (s.chargeStack x (stackBytes la (4 * n))).qWrite x.fn (offOf la) list with
    | (t, none) => done t
    | (t, some e) => t.failCmd x 6 0 e

/-- SEAL_FREE (R276): every entry of the range must be SEALED. -/
def State.sealFree (s : State) (x : Ctx) : State :=
  let n := fld (x.w 2) 0 16
  let idx := fld (x.w 3) 0 15
  if (List.range n).any fun i =>
      let e := s.mem.maps.get (x.fn, idx + i)
      !(e.valid && e.sealed) then s.finish x.id stRefused 2
  else ((List.range n).foldl (fun t i => t.unmapIf x.fn fun j => j == idx + i) s).finish x.id stDone (w32 n)

/-! ### KEY_UPDATE (R300, R301) -/

/-- A blank slot: it reads as erased. -/
def KeySlot.erased : KeySlot := ⟨0, 0, false, true⟩

/-- Any page of the device is SEALED. -/
def State.anySealed (s : State) : Bool := s.mem.maps.ents.any fun e => e.2.valid && e.2.sealed

/-- KEY_UPDATE begins (R301): refused, or step 1 draws the new SRK and the rest runs in the key store. -/
def State.keyUpdate (s : State) (x : Ctx) : State :=
  if s.qst.update.isSome then s.beginWait x 1 0
  else if s.anySealed then s.finish x.id stRefused 1
  else if 512 ≤ s.qst.fuse then s.finish x.id stNoResource 1
  else if s.entFailed 0 then s.finish x.id stFault 0xE01
  else
    let (v, t) := s.drawMod (2 ^ 256)
    (t.withQst fun q =>
      { q with
        update := some (x.id, BitVec.ofNat 256 v)
        reqs := q.reqs.set 0 1
        seeded := q.seeded.set 0 t.now }).beginWait x 0 0

/-- Commands that waited for a KEY_UPDATE go on, in fetch order. -/
def State.keyWake (s : State) : State :=
  (s.cp.ctxs.filter fun x => x.phase == .running && (x.op == 0x70 || x.op == 0x7E) && (match x.work with
    | .waits _ a _ => a == 1
    | _ => false)).foldl (fun t x => if x.op = 0x70 then t.sealAlloc x else t.keyUpdate x) s

/-- KEY_STORE (Table 13.10). -/
def State.keyStoreEvent (s : State) : State :=
  s.event 0 { code := 0x1303, island := 33, d0 := s.qst.fuse, d1 := s.qst.recovery }

/-- KEY_UPDATE_COMPLETE (R301, steps 2 to 5). -/
def State.keyComplete (s : State) (o : KeyOutcome) : State :=
  match s.qst.update with
  | none => s
  | some (id, srk) =>
    let c := s.qst.fuse
    let i := (c + 1) % 2
    let s1 := s.withQst fun q => { q with update := none }
    (match o with
    | .ok =>
      ((s1.withQst fun q =>
        { q with
          store := (q.store.set i ⟨srk, c + 1, true, false⟩).set (c % 2) KeySlot.erased
          fuse := c + 1
          marginal := false }).keyStoreEvent).finish id stDone (w32 (c + 1))
    | .verifyFailed => (s1.withQst fun q => { q with store := q.store.set i KeySlot.erased }).finish id stFault 2
    | .fuseFailed =>
      (s1.withQst fun q => { q with store := q.store.set i ⟨srk, c + 1, true, false⟩, marginal := true }).finish id stFault 3).keyWake

/-! ### Power loss and the fuse-read stage (R302, Table 13.8) -/

/-- Power fails during a KEY_UPDATE: what stands in the store is one of the rows of Table 13.8, which one a free value says. -/
def State.keyPowerLoss (s : State) : State :=
  match s.qst.update with
  | none => s
  | some (_, srk) =>
    let (v, t) := s.free
    let c := t.qst.fuse
    let i := (c + 1) % 2
    let new : KeySlot := ⟨srk, c + 1, true, false⟩
    t.withQst fun q =>
      let r : Qst := { q with update := none }
      match v.toNat % 7 with
      | 0 => r
      | 1 => { r with store := q.store.set i ⟨srk, c + 1, false, false⟩ }
      | 2 => { r with store := q.store.set i new }
      | 3 => { r with store := q.store.set i new, marginal := true }
      | 4 => { r with store := q.store.set i new, fuse := c + 1, marginal := false }
      | 5 => { r with store := (q.store.set i new).upd (c % 2) fun k => { k with valid := false }, fuse := c + 1, marginal := false }
      | _ => { r with store := (q.store.set i new).set (c % 2) KeySlot.erased, fuse := c + 1, marginal := false }

/-- The fuse-read stage of Windup (R302). -/
def Qst.fuseRead (q : Qst) : Qst :=
  let k := q.store.get ((q.fuse + 1) % 2)
  let good : Bool := k.valid && k.gen == q.fuse + 1
  let q1 : Qst :=
    if q.marginal && good then { q with fuse := q.fuse + 1, marginal := false, recovery := 2 }
    else if q.marginal then { q with recovery := 3 }
    else { q with recovery := 0 }
  let i := (q1.fuse + 1) % 2
  if (q1.store.get i).blank then q1
  else { q1 with store := q1.store.set i KeySlot.erased, recovery := max q1.recovery 1 }

/-- The active slot is valid with GEN = COUNT (R302). -/
def Qst.keyOk (q : Qst) : Bool :=
  let k := q.store.get (q.fuse % 2)
  k.valid && k.gen == q.fuse

/-- QST.KEY_STATUS (Table 13.9). -/
def State.keyStatus (s : State) : Nat :=
  let q := s.qst
  q.fuse % 1024 + q.fuse % 2 * 1024 + b01 (q.store.get 0).valid * 2048 + b01 (q.store.get 1).valid * 4096 +
  q.recovery % 4 * 8192 + b01 q.update.isSome * 32768

/-! ### Entropy health (R295, R296) -/

/-- ENTROPY_HEALTH_FAIL (R296): the unit's DRBG stops serving; `test` 1 repetition count, 2 adaptive proportion, 3 start-up. -/
def State.entropyFail (s : State) (u test : Nat) : State :=
  let s1 := (s.rput .entStatus u 0 (1 + sat 65535 (s.rfld .entStatus 16 16 u + 1) * 65536)).withQst fun q =>
    { q with failAt := q.failAt.set u s.now }
  (s1.logFault { cls := 11, island := 30 + u, action := 0, loc := u }).event 0
    { code := 0x1302, island := 30 + u, d0 := u, d1 := test, d2 := s.qst.restarts.get u }

/-- The DRBG of a unit is seeded afresh. -/
def State.seedDrbg (s : State) (u : Nat) : State :=
  s.withQst fun q => { q with reqs := q.reqs.set u 0, seeded := q.seeded.set u s.now }

/-- ENTROPY_RESTART (R296): 10 ms after a failure, with ENT_RESTART = 1, the start-up tests are repeated. -/
def State.entropyRestart (s : State) (u : Nat) (ok : Bool) : State :=
  if !s.entFailed u || !s.rbit .qstPolicy 2 || decide (ticks (s.qst.failAt.get u) s.now < 10000000) then s
  else if ok then
    ((s.rsetFld .entStatus 0 1 0 u).withQst fun q => { q with restarts := q.restarts.upd u (· + 1) }).seedDrbg u
  else s.entropyFail u 3

/-- DRBG_RESEED (R295): after 2^20 generate requests or 1 s. -/
def State.drbgReseed (s : State) (u : Nat) : State :=
  if s.entFailed u then s
  else if 2 ^ 20 ≤ s.qst.reqs.get u ∨ 1000000000 ≤ ticks (s.qst.seeded.get u) s.now then s.seedDrbg u
  else s

/-! ### Residue mismatches (R283) -/

/-- A residue mismatch in a slice: counted, reported and logged, and the slice runs again while attempts are left; then the command
goes to the fault policy. -/
def State.residueFault (s : State) (x : Ctx) (u slice attempt : Nat) : State × Bool :=
  let again := decide (attempt ≤ s.rfld .qstPolicy 0 2)
  let s1 := (s.radd32 .residueErr u 0 1).event 0
    { code := 0x1301, island := 30 + u, queue := x.id.q, stepId := s.stepIdOf x.sid, d0 := u + x.op * 256, d1 := attempt, d2 := x.ten }
  let s2 := s1.logFor x 10 (30 + u) (if again then 1 else s1.policyAction x) u x.op
  if again then (s2, true) else (s2.toPolicy x.id 10 (30 + u) 0 slice, false)

/-! ### What a function-level reset takes (R319) -/

/-- A tenant's parameter slots clear and its seal generation rises. -/
def State.dropQuisto (s : State) (t : Nat) : State :=
  (s.radd32 .sealGen t 0 1).withQst fun q => { q with params := q.params.keep fun k _ => k.1 ≠ t }

end Sys2Proof.Machine
end

