-- ==== Sys2Proof/Machine/Feeders.lean ====
section
/-! DEFINITION. The Feeders: the streams of a tile, the regions of an array's share of the scratchpad, what fills them and what they wait for
(R124, R231 to R237). -/

namespace Sys2Proof.Machine

/-! ### Groups and regions (R231) -/

/-- Bytes a group brings, and the 4 KiB regions they take. -/
def Group.size (g : Group) : Nat := g.len * g.n
def Group.regions (g : Group) : Nat := cdiv g.size 4096

/-- Region `r` of a group as pieces: offset from its source, and length. -/
def Group.frags (g : Group) (r : Nat) : List (Nat × Nat) :=
  let lo := 4096 * r
  let hi := min (4096 * (r + 1)) g.size
  (List.range (cdiv hi g.len - lo / g.len)).map fun i =>
    let q := lo / g.len + i
    let a := max lo (q * g.len)
    (q * g.stride + (a - q * g.len), min hi ((q + 1) * g.len) - a)

/-- Regions of the groups that a test picks. -/
def regionsOf (gs : List Group) (p : Group → Bool) : Nat := (gs.filter p).foldl (fun n g => n + g.regions) 0

/-- Group and region of it at place `i` of a list of groups. -/
def regionAt : List Group → Nat → Option (Group × Nat)
  | [], _ => none
  | g :: l, i => if i < g.regions then some (g, i) else regionAt l (i - g.regions)

/-- The region a stream fetches next. -/
def Stream.next (st : Stream) : Option (Group × Nat) := regionAt st.groups st.fetched

/-- All regions of a stream. -/
def Stream.total (st : Stream) : Nat := regionsOf st.groups fun _ => true

/-- What the array needs of a stream for a pass has been fetched. -/
def Stream.has (st : Stream) (p : Nat) : Bool := decide (regionsOf st.groups (fun g => g.first ≤ p) ≤ st.fetched)

/-- Regions a stream consumes in one pass of its tile (R232). -/
def passRegions (gs : List Group) : Nat := gs.foldl (fun m g => max m (regionsOf gs fun k => k.first ≤ g.first ∧ g.first ≤ k.last)) 0

/-- A stream of a command: its class, how TEN.FEED bounds it, and its effective window max(CREDITS, pass regions, 8) (R232). -/
def newStream (x : Ctx) (cls : Nat) (gs : List Group) : Stream :=
  { cls := cls, credit := bit x.feed.toNat cls, win := max (max (fld x.feed.toNat 8 8) 8) (passRegions gs), groups := gs }

/-- The streams that bring something. -/
def streamsOf (x : Ctx) (l : List (Nat × List Group)) : List Stream := (l.filter fun e => e.2 ≠ []).map fun e => newStream x e.1 e.2

/-- The streams of a tile in the class order W, E, S, A (R233), and its passes. -/
def State.tileStreams (s : State) (x : Ctx) (cap : MatCap) (ord : Nat) : List Stream × Nat :=
  if x.op = 0x41 then
    match s.chunk? x.id, s.fam? x.ten (Chunk.famOf x) with
    | some c, some m =>
      (streamsOf x [(1, c.pGroups x m.d ord), (3, c.sGroups x m ord), (0, c.xGroups x m.d ord)], (c.tileEnts x ord).length)
    | _, _ => ([], 0)
  else
    let n := passCount x cap.afmt ord
    (streamsOf x [(1, wGroups x cap.afmt ord), (2, eGroups x cap.prog ord (n - 1)), (0, aGroups x cap.afmt ord)], n)

/-! ### Filling a region -/

/-- The model a command's weights or parameters come from, while it is resident. -/
def State.weightModel (s : State) (x : Ctx) : Option Model :=
  match (s.handleOf x).bind (s.model? x.ten) with
  | some m => if m.resident then some m else none
  | none => none

/-- A piece of a stream is read. -/
def State.readSrc (s : State) (x : Ctx) (h : HostData) (src : Src) (o n : Nat) : Except Fail (List W8) :=
  match src with
  | .op a => s.opRead x.fn h (addrAdd a o) n
  | .pool pa => s.physRead (pa + o) n
  | .model m => match s.weightModel x with
    | some mod => .ok ((List.range n).map fun i => s.modelByte mod (m + o + i))
    | none => .error (.held 4)

/-- A piece's stack bytes (R79): lines of stacked memory; none from the Toychest or the host. -/
def srcBytes (src : Src) (o n : Nat) : Nat :=
  match src with
  | .op a => stackBytes (addrAdd a o) n
  | .pool pa => physBytes (pa + o) n
  | .model _ => 0

/-- The lines of a piece meet what is stored in them. -/
def State.meetSrc (s : State) (x : Ctx) (src : Src) (o n : Nat) : State :=
  match src with
  | .op a => s.meetOp x.fn (addrAdd a o) n
  | .pool pa => s.meetPhys (pa + o) n
  | .model _ => s

/-- Why the reads of a piece wait, if they do (R17, R219, R221). -/
def State.srcHeld (s : State) (x : Ctx) (src : Src) (o n : Nat) : Option Nat :=
  match src with
  | .op a => if isDev a then s.extHeld x.fn (offOf (addrAdd a o)) n else if s.clockOn 28 then none else some 1
  | .pool pa => (List.range (physBytes (pa + o) n / 64)).findSome? fun i => s.heldCause ((pa + o) / 64 + i)
  | .model _ => if (s.weightModel x).isSome then none else some 4

/-- Stack bytes of a region. -/
def regionBytes (g : Group) (r : Nat) : Nat := (g.frags r).foldl (fun n f => n + srcBytes g.src f.1 f.2) 0

/-- The stack accounts of a command. -/
def Ctx.stackAccts (x : Ctx) : List Acct := workAccts x.fn x.part 1

/-- The Feeder fills region `reg` of a cell with a stream's next: paid for line by line (R79, R81), then read, and marked with its owner (R63).
A read that waits leaves the region empty. -/
def State.fillRegion (s : State) (cell reg : Nat) (x : Ctx) (h : HostData) (st : Stream) : State × Stream × Option Fail :=
  match st.next with
  | none => (s, st, none)
  | some (g, r) =>
    let need := regionBytes g r
    let (t, m) := s.payPart x.stackAccts 64 (need - st.paid) (whoOf x.fn) x.part
    let st1 := { st with paid := st.paid + m }
    if st1.paid < need then (t, st1, none)
    else
      let fs := g.frags r
      match fs.findSome? fun f => t.srcHeld x g.src f.1 f.2 with
      | some c => (t, st1, some (.held c))
      | none =>
        let u := fs.foldl (fun v f => v.meetSrc x g.src f.1 f.2) t
        match mapE (fun f => u.readSrc x h g.src f.1 f.2) fs with
        | .error e => (u, st1, some e)
        | .ok bs =>
          (u.withEn fun e => { e with scratch := e.scratch.set (cell, reg) ⟨x.fn + 1, bs.flatten⟩ },
            { st1 with paid := 0, fetched := st.fetched + 1, regs := st.regs ++ [reg] }, none)

/-- The stream has a region to fetch, and its window room for it (R231). -/
def Stream.wants (st : Stream) : Bool := st.next.isSome && decide (st.regs.length < st.win)

/-- One region is filled for the first of some streams, in their order, that can have one; a stream whose source waits is passed over. -/
def State.fillFirst (s : State) (cell reg : Nat) (x : Ctx) (h : HostData) : List Stream → State × List Stream × Option Fail
  | [] => (s, [], none)
  | st :: l =>
    if !st.wants then
      let (t, l', e) := State.fillFirst s cell reg x h l
      (t, st :: l', e)
    else match s.fillRegion cell reg x h st with
      | (t, st', some (.held _)) =>
        let (u, l', e) := State.fillFirst t cell reg x h l
        (u, st' :: l', e)
      | (t, st', e) => (t, st' :: l, e)

/-- Windows of streams, added up. -/
def windows (l : List Stream) : Nat := l.foldl (fun n st => n + st.win) 0

/-- The streams of the tile in flight on an array. -/
def Arr.flyStreams (a : Arr) : List Stream :=
  match a.fly with
  | some f => f.streams
  | none => []

/-- The lowest free region of the share of array `k` (R231): regions 960a to 960a + 959 of its cell. -/
def State.freeRegion (s : State) (k : Nat) : Option Nat :=
  let a := s.arr k
  let used := ((a.flyStreams ++ a.lookStreams).map (·.regs)).flatten
  ((List.range 960).map (960 * (k % 4) + ·)).find? fun r => !used.contains r

/-! ### Passes -/

/-- A region as the array of a function reads it: another owner's reads as zeros (R63). -/
def State.regionRead (s : State) (cell fn reg : Nat) : List W8 :=
  let g := s.en.scratch.get (cell, reg)
  if g.tag = fn + 1 then g.bytes else g.bytes.map fun _ => 0

/-- A pass ends: the regions used last in it are freed. -/
def Stream.consume (rd : Nat → List W8) (p : Nat) (st : Stream) : Stream :=
  let n := regionsOf st.groups fun g => g.last = p
  { st with used := st.used + n, regs := st.regs.drop n, seen := st.seen ++ ((st.regs.take n).map rd).flatten }

/-- The passes whose operands have been fetched run. -/
def Flight.run (rd : Nat → List W8) : (fuel : Nat) → Flight → Flight
  | 0, f => f
  | n + 1, f =>
    if f.pass < f.passes && f.streams.all (·.has f.pass) then
      Flight.run rd n { f with pass := f.pass + 1, streams := f.streams.map (Stream.consume rd f.pass) }
    else f

/-- The pieces that the streams of a class have brought. -/
def Flight.read (f : Flight) (cls : Nat) : List (List (List W8)) :=
  match f.streams.find? fun st => st.cls = cls with
  | some st => cutGroups st.groups st.seen
  | none => []

/-- A tile whose passes have all run drains its array (R100, R130, R242). -/
def State.drainFlight (s : State) (x : Ctx) (ord : Nat) (f : Flight) : Flight :=
  if x.op = 0x41 then
    match s.chunk? x.id, s.fam? x.ten (Chunk.famOf x) with
    | some c, some m => { f with ready := true, seqs := c.tileOuts x m ord (f.read 0) (f.read 1) (f.read 3) }
    | _, _ => { f with ready := true }
  else match s.cap? x.id with
    | some c =>
      let (rows, sums) := drainTile x c ord (f.read 0) (f.read 1) (f.read 2)
      { f with ready := true, rows := rows, sums := sums }
    | none => { f with ready := true }

/-- The tile on an array goes on as far as what has been fetched allows. -/
def State.advanceTile (s : State) (k : Nat) : State :=
  match (s.arr k).fly with
  | none => s
  | some f => match f.job with
    | .selftest => s
    | .tile id ord _ => match s.ctx? id with
      | none => s
      | some x =>
        if f.ready then s
        else
          let g := f.run (s.regionRead (k / 4) x.fn) f.passes
          let g' := if g.pass = g.passes then s.drainFlight x ord g else g
          s.updArr k fun a => { a with fly := some g' }

/-! ### FEEDER_REGION_FILLED (R231, R233 to R235) -/

/-- The operand word whose address a class of stream follows, for ST_RANGE (R215). -/
def streamWord (x : Ctx) (cls : Nat) : Nat :=
  if x.op = 0x41 then (if cls = 0 then 6 else 2) else if cls = 0 then 4 else if cls = 1 then (if bit (x.w 2) 10 then 6 else 3) else 12

/-- The Feeder fills a region for the tile in flight: none while its windows exceed the share (R235). -/
def State.fillTile (s : State) (k : Nat) (f : Flight) (x : Ctx) (ord : Nat) (h : HostData) : State :=
  if 960 < windows f.streams then s
  else match s.freeRegion k with
    | none => s
    | some reg =>
      match s.fillFirst (k / 4) reg x h f.streams with
      | (t, l, none) => (t.updArr k fun a => { a with fly := some { f with streams := l } }).advanceTile k
      | (t, l, some (.held _)) => t.updArr k fun a => { a with fly := some { f with streams := l } }
      | (t, l, some e) =>
        t.failCmd x (streamWord x ((l.find? Stream.wants).map (·.cls) |>.getD 0)) ord e

/-- The streams of a lookahead tile that may be staged now (R234): of one that waits only on a WAIT flag, its credit-bounded streams, and the
others with DEP_MARK = 0; of any other, all. -/
def lookOpen (x : Ctx) (st : Stream) : Bool := x.phase != .fetched || st.credit || !bit (x.w 0) 11

/-- The Feeder fills a region for the lookahead tile, in what the running tile's windows leave of the share (R233); a read that fails stages
nothing (assumption log 28). -/
def State.fillLook (s : State) (k : Nat) (h : HostData) : State :=
  let a := s.arr k
  match a.look.bind fun l => s.ctx? l.1, s.freeRegion k with
  | some x, some reg =>
    let held := a.lookStreams.foldl (fun n st => n + st.regs.length) 0
    if 960 ≤ windows a.flyStreams + held then s
    else
      let (go, stay) := a.lookStreams.partition (lookOpen x)
      let (t, l, _) := s.fillFirst (k / 4) reg x h go
      t.updArr k fun b => { b with lookStreams := l ++ stay }
  | _, _ => s

/-- FEEDER_REGION_FILLED: the Feeder of an array fills one region, for the running tile first (R233); `es` are errors that lines of the device
have taken on. -/
def State.feederFilled (s0 : State) (k : Nat) (es : List Hit) (h : HostData) : State :=
  let s := s0.strike es
  match (s.arr k).fly with
  | none => s
  | some f => match f.job with
    | .selftest => s.fillLook k h
    | .tile id ord _ => match s.ctx? id with
      | none => s
      | some x => if f.streams.any Stream.wants then s.fillTile k f x ord h else s.fillLook k h

/-! ### What a stream waits for (R236, R237) -/

/-- The cause of Table 11.4 on which a stream's next region waits. -/
def State.streamCause (s : State) (x : Ctx) (room : Bool) (st : Stream) : Option Nat :=
  match st.next with
  | none => none
  | some (g, r) =>
    let need := regionBytes g r - st.paid
    if need ≠ 0 ∧ s.affordable x.stackAccts 64 need = 0 then some 0
    else match (g.frags r).findSome? fun f => s.srcHeld x g.src f.1 f.2 with
      | some c => some c
      | none =>
        if !room then some 11
        else match g.src with
          | .op a => some (if isDev a then 14 else 12)
          | .model _ => some 13
          | .pool _ => some 14

/-- The cause under which a stream stalls the tile in flight: the array needs more of it for its present pass. -/
def State.flyCause (s : State) (x : Ctx) (f : Flight) (st : Stream) : Option Nat :=
  if f.ready || st.has f.pass then none else s.streamCause x (windows f.streams ≤ 960) st

/-- The cause under which a stream of a lookahead tile is held up: an account, an island, a line, a model, or a region. -/
def State.lookCause (s : State) (k : Nat) (x : Ctx) (st : Stream) : Option Nat :=
  if lookOpen x st && decide (st.regs.length < st.win) then
    let a := s.arr k
    let held := a.lookStreams.foldl (fun n t => n + t.regs.length) 0
    (s.streamCause x (windows a.flyStreams + held < 960) st).filter (· < 12)
  else none

/-- The cause under which the array of a tile is stalled (R237): its streams', the lowest-numbered, or an account that its commit waits on. -/
def State.arrStall (s : State) (k : Nat) : Option Nat :=
  match (s.arr k).fly with
  | none => none
  | some f => match f.cmd.bind s.ctx? with
    | none => none
    | some x => if f.ready then (if f.paid = 0 then none else some 0) else (f.streams.filterMap (s.flyCause x f)).min?

end Sys2Proof.Machine
end

