-- ==== Sys2Proof/Machine/Sched.lean ====
section
/-! DEFINITION. The step scheduler: what matrix commands take at dispatch and at their beginning, candidates, pre-emption, and the choice of an
array's next work (R93 to R107, R117 to R121, R127, R142, R146, R233, R306). -/

namespace Sys2Proof.Machine

/-! ### MATMUL and GATE_ONLY (R117 to R121, R127, R142, R146) -/

/-- Bytes of W in a model or in memory (R119). -/
def weightBytes (x : Ctx) : Nat :=
  let D := ((pairOf x.afmt x.wfmt).getD (128, 1)).1
  cdiv x.mN 128 * cdiv x.mK D * elemBytes x.wfmt (D * 128)

/-- The weights of a MATMUL come from a model (WSRC = 0). -/
def usesModel (x : Ctx) : Bool := x.op == 0x20 && !bit (x.w 2) 10

/-- A program without operations. -/
def noProg : List W8 := List.replicate 64 0

/-- A matrix command is dispatched (R142, R146, R149): it takes its layer record, its divisor and the format of its A, or ends. -/
def State.matCapture (s : State) (x : Ctx) : Except (Nat × W32) State :=
  let follow := s.followOf x
  let af := follow.getD x.afmt
  match (match follow with
    | some w => s.check89 x.fn [⟨4, x.a 4, x.mM * pitch64 w (if x.gateOnly then x.mN else x.mK)⟩]
    | none => none) with
  | some e => .error e
  | none =>
    if ignoresLayer x.ofmt then .ok (s.setCap x.id (MatCap.fresh af follow.isSome none {} oneF noProg))
    else match s.captureLayer x (fld (x.w 15) 0 10) x.ofmt with
      | .error e => .error e
      | .ok (t, r, d) => .ok (t.setCap x.id (MatCap.fresh af follow.isSome (some (fld (x.w 15) 0 10)) r d noProg))

/-- What a command takes at its dispatch: a matrix command its captures, LAYER_READ its record (R141, R142). -/
def State.onDispatch (s : State) (x : Ctx) : State :=
  if x.op = 0x20 ∨ x.op = 0x21 then
    match s.matCapture x with
    | .ok t => t
    | .error (st, d) => s.finish x.id st d
  else if x.op = 0x23 then s.layerTake x
  else s

/-- The gate program of a command (R127): its 64 bytes, all zero when there is none, or how the command ends. -/
def State.gateProgram (s : State) (x : Ctx) (h : HostData) : Except (State → State) (List W8) :=
  if x.a 12 = 0 then .ok noProg
  else match s.opRead x.fn h (x.a 12) 64 with
    | .error e => .error fun t => t.failCmd x 12 0 e
    | .ok p =>
      match progBad p x.mN x.tileN with
      | some d => .error fun t => t.finish x.id stBadPacket d
      | none =>
        match s.check89 x.fn (⟨8, x.a 8, x.mM * pitch64 x.ofmt (nOut p x.mN)⟩ :: progExts p x.mM x.mN) with
        | some (st, d) => .error fun t => t.finish x.id st d
        | none => .ok p

/-- A MATMUL or GATE_ONLY whose model is there begins: its gate program is read, its model counts one use more (R59); then tiles. -/
def State.matGo (s : State) (x : Ctx) (h : HostData) : State :=
  s.gate x (if x.a 12 = 0 then 0 else stackBytes (x.a 12) 64) fun t0 =>
    let t := t0.meetOp x.fn (x.a 12) (if x.a 12 = 0 then 0 else 64)
    match t.gateProgram x h with
    | .error k => k t
    | .ok prog =>
      let u := (if usesModel x then t.useModel x.ten (fld (x.w 2) 0 10) else t).updCap x.id fun c => { c with prog := prog }
      u.updCtx x.id fun y => { y with phase := .running, begunAt := u.now, work := .tiles x.tileCount 0 [] false }

/-- MATMUL or GATE_ONLY: its model (R60), its weight extent (R118), its gate program. -/
def State.matBegin (s : State) (x : Ctx) (h : HostData) : State :=
  if x.work ≠ .none then s
  else if usesModel x then
    match s.modelState x (fld (x.w 2) 0 10) with
    | .wait => s
    | .absent => s.autoload x (fld (x.w 2) 0 10)
    | .ready m => if m.size < x.w 3 + weightBytes x then s.finish x.id stRange 3 else s.matGo x h
  else s.matGo x h

/-! ### Candidates (R96, R97, R233) -/

/-- The next tile of a command that has begun. -/
def nextTile (x : Ctx) : Option Nat :=
  match x.work with
  | .tiles n k _ _ => if x.phase = .running ∧ k < n then some k else none
  | _ => none

/-- A command of the array families (Table 18.2). -/
def usesArrays (x : Ctx) : Bool := x.op == 0x20 || x.op == 0x21 || x.op == 0x41

/-- Commands of a partition with a tile to dispatch, in fetch order. -/
def State.tileCands (s : State) (p : Nat) : List (Ctx × Nat) :=
  s.cp.ctxs.filterMap fun x => if x.part = some p then (nextTile x).map fun o => (x, o) else none

/-- The array accounts of a command pass on a cell (R79). -/
def State.arrayPass (s : State) (cell : Nat) (x : Ctx) : Bool := s.pass (workAccts x.fn x.part 0) (s.reserveNs cell)

/-- SPILL admits a tile whose tenant's account fails (R81). -/
def State.spillOk (s : State) (p cell : Nat) (x : Ctx) : Bool :=
  s.rbit .budCtrl 0 p && s.pass [.part p 0] (s.reserveNs cell) &&
  !((s.tileCands p).any fun c => c.1.fn != x.fn && s.arrayPass cell c.1)

/-- A tile whose dispatch the accounts allow (R96, item 4). -/
def State.admits (s : State) (p cell : Nat) (x : Ctx) : Bool := s.arrayPass cell x || s.spillOk p cell x

/-- The first of a list of candidates whose step has the lowest key. -/
def State.lowest (s : State) : List (Ctx × Nat) → Option (Ctx × Nat)
  | [] => none
  | c :: l => some (l.foldl (fun m d => if keyLt (s.keyOf d.1) (s.keyOf m.1) then d else m) c)

/-- R97, items 3 and 4, over candidates: with PREEMPT = 0 the step named, else the lowest key. -/
def State.chooseTile (s : State) (p : Nat) (step : Option Nat) (cs : List (Ctx × Nat)) : Option (Ctx × Nat) :=
  let keep := if s.rbit .schedCtrl 0 p then none else step.bind fun sid => s.lowest (cs.filter fun c => c.1.sid == sid)
  keep.orElse fun _ => s.lowest cs

/-- The matrix commands of a partition that only a WAIT flag keeps from dispatch, each with its first tile (R233).  Nothing before such a command in its queue is kept from dispatch by
anything else: no fence, no STEP_BEGIN not yet admitted. -/
def State.waitCands (s : State) (p : Nat) : List (Ctx × Nat) :=
  s.cp.ctxs.filterMap fun x =>
    let before := (s.qCtxs x.id.q).takeWhile fun y => decide (y.id ≠ x.id)
    if x.part = some p ∧ x.phase = .fetched ∧ usesArrays x ∧ fld (x.w 0) 8 2 ≠ 0 ∧ before.all (fun y =>
        decide (y.phase ≠ .fetched) && (decide (y.phase = .done) || (y.op != 4 && y.op != 1))) ∧
        (x.op ≠ 0x41 ∨ s.seqReady x.id) then
      some (x, 0)
    else none

/-! ### Pre-emption (R104 to R107) -/

/-- A ready tile of a step, but for its accounts. -/
def State.readyTile (s : State) (sid : Nat) : Option (Ctx × Nat) :=
  s.cp.ctxs.findSome? fun x => if x.sid = sid then (nextTile x).map fun o => (x, o) else none

/-- CMD_COUNT and NEXT_TILE of a step (R105): its lowest-count command with tiles not yet dispatched, and the lowest of them. -/
def State.stepTile (s : State) (sid : Nat) : Option (Ctx × Nat) :=
  s.cp.ctxs.findSome? fun x =>
    if x.sid ≠ sid then none
    else if x.phase = .running then (nextTile x).map fun o => (x, o)
    else if usesArrays x ∧ x.phase ≠ .done then some (x, 0)
    else none

/-- The array goes to other work while the step whose tile it has just ended still has a ready one (R104): the yo-yo record is written.  REASON is
3 for a self-test slice, 2 where the step's accounts fail, else 1.  DESIGN CHOICE (log 66): 1 also where the other work is a due retry whose
step has no lower key. -/
def State.preempt (s : State) (k : Nat) (reason : Nat) : State :=
  match (s.arr k).lastSid with
  | none => s
  | some sid =>
    match s.readyTile sid, s.stepTile sid, s.step? sid with
    | some (z, _), some (x, o), some st =>
      let p := z.part.getD 0
      let why := if reason = 3 then 3 else if s.admits p (k / 4) z then 1 else 2
      let losses := match st.yoyo with
        | some y => sat 255 (y.losses + 1)
        | none => 1
      let y : Yoyo :=
        { cmdCount := x.id.c, nextTile := w32 o, stepId := st.stepId, queue := st.q, rt := st.rt, part := p, reason := why
          late := decide (st.key ≠ w64 (2 ^ 64 - 1)) && s.passed st.key, losses := losses }
      (s.updStep sid fun t => { t with yoyo := some y }).radd32 .preempts p 0 1
    | _, _, _ => s

/-- The commands whose tiles run on arrays of a partition, with their arrays. -/
def State.runningIn (s : State) (p : Nat) : List (Nat × Ctx) :=
  (List.range 64).filterMap fun k =>
    if s.cellPart (k / 4) = some p then
      match (s.arr k).fly with
      | some f => f.cmd.bind fun id => (s.ctx? id).map fun y => (k, y)
      | none => none
    else none

/-- Steps of a partition that R107 speaks of: a ready tile, accounts that pass, and a key strictly below that of a step running there. -/
def State.outranked (s : State) (p : Nat) : List Nat :=
  if !s.rbit .schedCtrl 0 p then []
  else ((s.tileCands p).filter fun c => (s.runningIn p).any fun r =>
    decide ((s.keyOf c.1).1 < (s.keyOf r.2).1) && s.arrayPass (r.1 / 4) c.1).map fun c => c.1.sid

/-- A step that has waited under R107 still does: a ready tile, and accounts that pass on a cell of its partition. -/
def State.stillWaits (s : State) (sid : Nat) : Bool :=
  match s.readyTile sid with
  | some (x, _) => match x.part with
    | some p => s.rbit .schedCtrl 0 p && (List.range 16).any fun n => s.cellPart n == some p && s.arrayPass n x
    | none => false
  | none => false

/-- The steps that wait under R107 at this instant, each since when; a step waits on until a tile of it starts, whatever still runs. -/
def State.trackWaits (s : State) : State :=
  let old := s.en.waitSince.filter fun w => s.stillWaits w.1
  let new := (((List.range 16).map s.outranked).flatten.dedup).filter fun sid => !old.any fun w => w.1 == sid
  s.withEn fun e => { e with waitSince := old ++ new.map fun sid => (sid, s.now) }

/-- A tile of a step starts: its response time is recorded where R107 measures one. -/
def State.noteResponse (s : State) (sid p : Nat) : State :=
  match s.en.waitSince.find? fun w => w.1 = sid with
  | none => s
  | some w =>
    let t := sat (2 ^ 32 - 1) (ticks w.2 s.now)
    (if s.rnat .preemptMax p < t then s.rput .preemptMax p 0 t else s).withEn fun e =>
      { e with waitSince := e.waitSince.filter fun v => v.1 ≠ sid }

/-- SCHED_CLR_MAX (Table 05.6). -/
def State.clrMax (s : State) (p : Nat) : State := s.rput .preemptMax p 0 0

/-! ### Starting work (R79, R97, R233) -/

/-- The array's lookahead is cancelled, its regions freed, and it is counted (R233). -/
def State.wasteLook (s : State) (k : Nat) : State :=
  match (s.arr k).look with
  | none => s
  | some _ => (s.updArr k fun a => { a with look := none, lookStreams := [] }).radd32 .feedWaste (k / 4) 0 1

/-- The gate program of a command as it stands, where it can be read and keeps its rules. -/
def State.progAhead (s : State) (x : Ctx) (h : HostData) : List W8 :=
  match (if x.a 12 = 0 then .ok noProg else s.opRead x.fn h (x.a 12) 64 : Except Fail (List W8)) with
  | .ok p => if (progBad p x.mN x.tileN).isNone then p else noProg
  | .error _ => noProg

/-- What a command would run with that has not begun: its packet's formats, or what it has taken, and its gate program as it stands (R234). -/
def State.capAhead (s : State) (x : Ctx) (h : HostData) : MatCap :=
  match s.cap? x.id with
  | some c => if x.phase = .running then c else { c with prog := s.progAhead x h }
  | none => MatCap.fresh x.afmt false none {} oneF (s.progAhead x h)

/-- A stream goes on from one that the lookahead staged with the same groups. -/
def resumeStream (ahead : List Stream) (st : Stream) : Stream :=
  match ahead.find? fun o => o.cls = st.cls ∧ o.groups = st.groups with
  | some o => o
  | none => st

/-- An array's lookahead tile is chosen (R233): by R97, items 3 and 4, among the tiles that are ready and those that fail R96 only at item 2 or
only at item 4; `sid` is the step whose tile has just started. -/
def State.chooseLook (s : State) (k p sid : Nat) (h : HostData) : State :=
  let cs := s.tileCands p ++ (s.waitCands p).filter fun c => s.arrayPass (k / 4) c.1
  match s.chooseTile p (some sid) cs with
  | none => s
  | some (y, o) => s.updArr k fun a => { a with look := some (y.id, o), lookStreams := (s.tileStreams y (s.capAhead y h) o).1 }

/-- A tile starts on array `k`: its reservation is charged, other arrays lose it as lookahead, its streams go on from what the lookahead staged,
and the array's next lookahead is chosen. -/
def State.startTile (s : State) (k : Nat) (x : Ctx) (ord attempt : Nat) (spill replay : Bool) (h : HostData) : State :=
  let r := s.reserveNs (k / 4)
  let p := x.part.getD 0
  let c : Charge := { tenant := tenantOf x.fn, part := x.part, spill := spill, r := r, period := s.cp.periodStart }
  let mine := decide ((s.arr k).look = some (x.id, ord))
  let ahead := if mine then (s.arr k).lookStreams else []
  let cap := (s.cap? x.id).getD (MatCap.fresh x.afmt false none {} oneF noProg)
  let (streams, n) := s.tileStreams x cap ord
  let s1 := if mine then s else s.wasteLook k
  let s2 := (List.range 64).foldl (fun t i => if i ≠ k ∧ (t.arr i).look = some (x.id, ord) then t.wasteLook i else t) s1
  let s3 := (s2.charges c.accts r).updArr k fun a =>
    { a with
      fly := some { job := .tile x.id ord attempt, start := s.now, charge := c, ran := 0, ready := false
                    streams := streams.map (resumeStream ahead), passes := n }
      look := none
      lookStreams := []
      lastSid := none }
  let s4 := if 1 < attempt ∧ !replay then s3.radd32 .tileRetried (k / 4) (k % 4) 1 else s3
  ((s4.noteResponse x.sid p).advanceTile k).chooseLook k p x.sid h

/-- A self-test array slice starts (R110). -/
def State.startTest (s : State) (k : Nat) : State :=
  let r := s.reserveNs (k / 4)
  ((s.wasteLook k).charge (.bg 0) r).updArr k fun a =>
    { a with
      fly := some { job := .selftest, start := s.now
                    charge := { tenant := none, part := none, spill := false, r := r, period := s.cp.periodStart }
                    ran := 0, ready := true }
      claim := true
      again := false
      lastSid := none }

/-! ### The choice (R97) -/

/-- An array is fenced (R306). -/
def State.fenced (s : State) (k : Nat) : Bool := s.rbit .arrayFenced (k % 4) (k / 4)

/-- A due entry may run on an array: a replay only on its own; a retry on any of the partition's, or with RETRY_OTHER = 0 on the same
one unless that is fenced (R102, R112, R306). -/
def State.dueOn (s : State) (k : Nat) (d : Due) : Bool :=
  if d.replay then d.arr == k
  else match s.ctx? d.id with
    | some x => decide (x.part = s.cellPart (k / 4)) && (!d.same || d.arr == k || s.fenced d.arr)
    | none => false

/-- A self-test slice of the running round claims an array the device chooses: which it is, a free value says. -/
def State.roundClaim (s : State) (k : Nat) : Bool × State :=
  if s.en.roundDone.contains k then (false, s)
  else
    let (v, t) := s.free
    (bit v.toNat 0, t)

/-- Another array of the cell runs a self-test slice (R110). -/
def State.cellTesting (s : State) (k : Nat) : Bool :=
  (List.range 4).any fun a => 4 * (k / 4) + a != k && (match (s.arr (4 * (k / 4) + a)).fly with
    | some f => decide (f.job = .selftest)
    | none => false)

/-- The cell's partition drains or switches: background slices stop there at their boundary, and resume after it (R70). -/
def State.cellDraining (s : State) (k : Nat) : Bool :=
  match s.cellPart (k / 4) with
  | some p => s.pstate p == 2 || s.pstate p == 3
  | none => false

/-- A self-test slice may start on an array (R70, R110). -/
def State.mayTest (s : State) (k : Nat) : Bool := !s.cellTesting k && !s.cellDraining k

/-- The array has ended a tile of a step, and work of a step goes to it: a pre-emption unless it is the same step (R104). -/
def State.preemptFor (s : State) (k sid : Nat) : State := if (s.arr k).lastSid = some sid then s else s.preempt k 1

/-- A due replay or retry that may go to an array and whose accounts pass, with its command (R97, items 1 and 2).  DESIGN CHOICE (log 66): of
several, the one that has been due longest. -/
def State.dueFor (s : State) (k : Nat) (replay : Bool) : Option (Due × Ctx) :=
  s.en.due.findSome? fun d =>
    if d.replay == replay && s.dueOn k d then
      (s.ctx? d.id).bind fun x => if s.arrayPass (k / 4) x then some (d, x) else none
    else none

/-- Dispatches a due replay or retry on an array, if one is due there and its accounts pass. -/
def State.takeDue (s : State) (k : Nat) (h : HostData) (replay : Bool) : Option State :=
  (s.dueFor k replay).map fun e =>
    ((s.withEn fun y => { y with due := y.due.erase e.1 }).preemptFor k e.2.sid).startTile k e.2 e.1.ord e.1.attempt false e.1.replay h

/-- Items 3 to 5 of R97 for an array of a partition. -/
def State.takeTile (s : State) (k p : Nat) (h : HostData) : State :=
  let cell := k / 4
  let cs := s.tileCands p
  let ok := cs.filter fun c => s.admits p cell c.1
  -- the work of the other steps waits on its accounts (R81, R82)
  let s1 := (cs.filter fun c => !s.admits p cell c.1).foldl (fun t c =>
    t.waitOn (workAccts c.1.fn c.1.part 0) (t.reserveNs cell) (whoOf c.1.fn) c.1.part) s
  match s1.chooseTile p (s1.arr k).lastSid ok with
  | none => s1
  | some (x, o) =>
    let s2 := s1.preemptFor k x.sid
    let s3 := s2.updCtx x.id fun y => match y.work with
      | .tiles n _ f w => { y with work := .tiles n (o + 1) f w }
      | _ => y
    match s3.ctx? x.id with
    | some y => s3.startTile k y o 1 (!s1.arrayPass cell x) false h
    | none => s3

/-- Work of R97 from item 2 on: a retry that is due, then tiles; item 1 stands in `tileDispatch`.  An array that finds nothing has no tile of a
step behind it any more (R104). -/
def State.takeWork (s : State) (k : Nat) (h : HostData) : State :=
  let t := match s.cellPart (k / 4) with
    | none => s
    | some p =>
      match s.takeDue k h false with
      | some t => t
      | none =>
        -- a retry whose accounts fail stays due (R102)
        let s1 := match s.en.due.find? fun (d : Due) => !d.replay && s.dueOn k d with
          | some d => match s.ctx? d.id with
            | some x => s.waitOn (workAccts x.fn x.part 0) (s.reserveNs (k / 4)) (whoOf x.fn) x.part
            | none => s
          | none => s
        s1.takeTile k p h
  if (t.arr k).fly.isNone then t.updArr k fun a => { a with lastSid := none } else t

/-- A self-test slice starts on the array where its account passes, else the array goes on to other work (R81, R97 item 1). -/
def State.takeTest (s : State) (k : Nat) (h : HostData) : State :=
  if s.pass [.bg 0] (s.reserveNs (k / 4)) then (s.preempt k 3).startTest k
  else (s.waitOn [.bg 0] (s.reserveNs (k / 4)) 0xFF none).takeWork k h

/-- TILE_DISPATCH (R97): array `k` at a tile boundary chooses its next work.  Nothing happens while it is busy or fenced, its clock is
stopped, or the CP has halted.  A replay goes before any other work (R112), then a self-test slice that has claimed the array (one that a
mismatch has claimed, not while a retry is due there, R306), then retries and tiles. -/
def State.tileDispatch (s : State) (k : Nat) (h : HostData) : State :=
  if (s.arr k).fly.isSome || s.fenced k || s.cp.halted || s.rfld .islStatus 0 12 (k / 4) == 0 then s
  else match s.takeDue k h true with
    | some t => t
    | none =>
      if !s.mayTest k then s.takeWork k h
      else if (s.arr k).again then s.takeTest k h
      else if (s.arr k).claim then (if s.en.due.any fun d => s.dueOn k d then s.takeWork k h else s.takeTest k h)
      else
        let (wants, s1) := s.roundClaim k
        if wants then s1.takeTest k h else s1.takeWork k h

end Sys2Proof.Machine
end

