-- ==== Sys2Proof/Machine/Tiles.lean ====
section
/-! DEFINITION. The end of a tile: its checksum, its commit, abandonment, the watchdog, and the end of a self-test slice (R100 to R103, R130 to
R133, R144, R145, R245, R306). -/

namespace Sys2Proof.Machine

/-- The second run of a widened command is under way (R145). -/
def isWide (x : Ctx) : Bool :=
  match x.work with
  | .tiles _ _ _ w => w
  | _ => false

/-! ### The checksum (R130 to R133, R245) -/

/-- A tile as it comes to its commit: its staged outputs, those of a SEQ_CHUNK's entries, its counts, and the counter of the first detector, in
the order of Table 06.9, that has seen an error (`none`: the checksum matches). -/
structure TileEnd where
  out : List Staged
  seqs : List SeqOut
  stats : TileStats
  found : Option RegName
deriving DecidableEq, Repr

/-- The bytes staged for an entry of a SEQ_CHUNK: its rows of Y, then its record. -/
def SeqOut.pieces (o : SeqOut) : List Staged := o.y ++ [⟨0, o.state, 0⟩]

/-- An entry with the pieces of the staging area put back. -/
def SeqOut.back (o : SeqOut) (ps : List Staged) : SeqOut :=
  { o with y := ps.take o.y.length, state := ((ps.drop o.y.length).map (·.bytes)).flatten }

/-- Entries with the pieces of the staging area put back. -/
def seqsBack : List SeqOut → List Staged → List SeqOut
  | [], _ => []
  | o :: l, ps => o.back ps :: seqsBack l (ps.drop o.pieces.length)

/-- Results of the pipeline that went wrong in an entry of a SEQ_CHUNK (R245): step 0 a word of the new record, step 1 a word of Y's row; a wrong
word is seen as in the gate pipeline (assumption log 64). -/
def SeqOut.wrong (errs : List (Nat × Nat × Nat × W32)) (row : Nat) (o : SeqOut) : SeqOut × Bool :=
  let fix (step : Nat) (bs : List W8) : List W8 × Bool :=
    let w := gateWrong errs row step (wordsF bs)
    if errs = [] then (bs, false) else ((w.1.map fun v => toBytes 4 v.toNat).flatten ++ bs.drop (bs.length / 4 * 4), w.2)
  let st := fix 0 o.state
  let ys := o.y.map fun g => (g, fix 1 g.bytes)
  ({ o with y := ys.map fun e => { e.1 with bytes := e.2.1 }, state := st.1 }, st.2 || ys.any fun e => e.2.2)

/-- The tile on an array comes to its commit with what went wrong in it (R130 to R132): accumulators are replaced before the drain forms its
sums, results of the gate pipeline as it runs, bytes of the staging area as it is read out. -/
def State.tileEnd (s : State) (x : Ctx) (f : Flight) (ord : Nat) (er : TileErr) : TileEnd :=
  if x.op = 0x41 then
    let es := f.seqs.zipIdx.map fun o => o.1.wrong er.gate o.2
    let ps := (es.map fun o => o.1.pieces).flatten
    let (bs, lineBad) := stageWrong er.line ((ps.map (·.bytes)).flatten)
    { out := [], seqs := seqsBack (es.map (·.1)) (restage ps bs), stats := {}
      found := if es.any (·.2) then some .chkGate else if lineBad then some .chkStage else none }
  else match s.cap? x.id with
    | none => ⟨[], [], {}, none⟩
    | some cap =>
      let rows := putAcc x cap.afmt er.acc f.rows
      let (out, st, gateBad) := tileOut x cap (isWide x) ord rows er.gate
      let (bs, stageBad) := stageWrong er.line ((out.map (·.bytes)).flatten)
      { out := restage out bs, seqs := [], stats := { st with nonfinite := tileNonfinite x cap rows }
        found := if colsBad x cap.afmt er.lane rows f.sums then some .chkCol
          else if rowsBad x cap.afmt er.lane rows f.sums then some .chkRow
          else if gateBad then some .chkGate
          else if stageBad then some .chkStage
          else none }

/-! ### Abandonment (R101 to R103, R306) -/

/-- TILE_ABANDONED (Table 05.4): cause 1 mismatch, 2 watchdog, 3 retention; outcome 0 retry scheduled, 1 fault policy. -/
def State.abandonedEvent (s : State) (k : Nat) (x : Option Ctx) (ord attempt cause outcome : Nat) : State :=
  let e : EvRec :=
    { code := 0x0501, island := k / 4
      queue := match x with
        | some y => y.id.q
        | none => 0xFFFF
      stepId := match x with
        | some y => s.stepIdOf y.sid
        | none => 0
      d0 := k / 4 + k % 4 * 16 + cause * 256 + attempt % 256 * 65536 + outcome * 16777216
      d1 := match x with
        | some _ => ord
        | none => 0
      d2 := match x with
        | some y => y.id.q + y.part.getD 0 * 65536 + y.ten * 1048576
        | none => 2 ^ 26 }
  match x with
  | some y => if y.fn = 0 then s.eventOf y.id 0 e else s.event 0 e
  | none => s.event 0 e

/-- LOCATION of a cell's array in the fault log (Table 14.3). -/
def cellLoc (k : Nat) : Nat := k / 4 + k % 4 * 16

/-- A tile of an array is handed to the fault policy with a class (R101, R102, R112). -/
def State.tilePolicy (s : State) (k : Nat) (x : Ctx) (ord attempt cls cause : Nat) : State :=
  ((s.logFor x cls (k / 4) (s.policyAction x) (cellLoc k) ord).abandonedEvent k (some x) ord attempt cause 1).toPolicy x.id cls
    (k / 4) (k % 4) ord

/-- A tile's checksum does not match (R102, R133, R306): it is abandoned and counted, the array is claimed for self-test, and the tile is
due again or the command goes to the fault policy. -/
def State.tileMismatch (s : State) (k : Nat) (x : Ctx) (ord attempt : Nat) (found : RegName) : State :=
  let n := k / 4
  let a := k % 4
  let s1 := (s.radd32 found n a 1).radd32 .tileMismatch n a 1
  let s2 := (s1.abandon k).updArr k fun r => { r with claim := true, lastSid := some x.sid }
  let p := x.part.getD 0
  if attempt ≤ s.rfld .tilePolicy 0 2 p then
    let s3 := (s2.logFor x 1 n 1 (cellLoc k) ord).abandonedEvent k (some x) ord attempt 1 0
    let s4 := if attempt = 1 then s3.updCap x.id fun c => { c with retried := c.retried + 1 } else s3
    s4.withEn fun e => { e with due := e.due ++ [⟨x.id, ord, attempt + 1, k, !s.rbit .tilePolicy 2 p, false⟩] }
  else s2.tilePolicy k x ord attempt 1 1

/-! ### Commit (R100, R133, R144, R145) -/

/-- A matrix command whose tiles have all committed: a misfit is reported or starts the second run, else the command completes.  DESIGN CHOICE
(log 67): of a command with 2²⁴ tiles or more, DETAIL [23:0] shows the number modulo 2²⁴. -/
def State.matDone (s : State) (x : Ctx) (cell : Nat) : State :=
  let nt := x.tileCount
  match s.cap? x.id with
  | none => s.finish x.id stDone (w32 (nt % 2 ^ 24))
  | some c =>
    let done := w32 (nt % 2 ^ 24 + sat 255 c.retried * 2 ^ 24)
    let e := x.mM * nOut c.prog x.mN
    match c.layer with
    | none => s.finish x.id stDone done
    | some l =>
      if isWide x then
        let s1 := s.radd32 .quantWidened x.ten 0 1
        let s2 := s1.updSlot x.sid l fun k => { k with wide := some (x.a 8, x.ofmt, wideOf x.ofmt) }
        s2.finish x.id stWidened (w32 (wideOf x.ofmt + x.ofmt * 16 + b01 (misfits c.rec_ c.sat2 e) * 256 + sat 65535 c.sat * 65536))
      else if misfits c.rec_ c.sat e then
        if widenOk x c then
          let t := s.misfit x l c.rec_ x.ofmt 1 c.sat e cell
          match t.check89 x.fn [⟨8, x.a 8, x.mM * pitch64 (wideOf x.ofmt) (nOut c.prog x.mN)⟩] with
          | some (st, d) => t.finish x.id st d
          | none => t.updCtx x.id fun y => match y.work with
            | .tiles _ _ f _ => { y with work := .tiles (2 * nt) nt f true }
            | _ => y
        else (s.misfit x l c.rec_ x.ofmt (if c.rec_.mode = 1 then 2 else 0) c.sat e cell).finish x.id stDone done
      else s.finish x.id stDone done

/-- The tiles a command has committed, with one more. -/
def State.tileDone (s : State) (x : Ctx) (ord cell : Nat) : State :=
  let s1 := s.updCtx x.id fun y => match y.work with
    | .tiles n k f w => { y with work := .tiles n k (ord :: f) w }
    | _ => y
  match s1.ctx? x.id with
  | some y => match y.work with
    | .tiles n _ f _ => if n ≤ f.length then (if y.op = 0x41 then s1.seqFinish y else s1.matDone y cell) else s1
    | _ => s1
  | none => s1

/-- Stack bytes of the writes of a tile's commit (R79). -/
def State.commitBytes (s : State) (x : Ctx) (ord : Nat) (e : TileEnd) : Nat :=
  if x.op = 0x41 then s.seqOutBytes x e.seqs
  else match s.cap? x.id with
    | some c => tileOutBytes x c (isWide x) ord
    | none => 0

/-- The pieces of a staging area's region `i`. -/
def stagePiece (bs : List W8) (i : Nat) : List W8 := (bs.drop (4096 * i)).take 4096

/-- What a tile stages stands in its array's staging area (R100, R124): regions 3,840 + 64a on, with its owner's tag. -/
def State.stageOut (s : State) (k fn : Nat) (bs : List W8) : State :=
  s.withEn fun e =>
    { e with
      scratch := (List.range (cdiv bs.length 4096)).foldl (fun t i => t.set (k / 4, 3840 + 64 * (k % 4) + i) ⟨fn + 1, stagePiece bs i⟩) e.scratch }

/-- The counts and the staging area of a tile that comes to its commit (R124, R131). -/
def State.noteEnd (s : State) (k fn : Nat) (e : TileEnd) : State :=
  let t := s.stageOut k fn (((e.out ++ (e.seqs.map SeqOut.pieces).flatten).map (·.bytes)).flatten)
  if e.stats.nonfinite then t.radd32 .tileNonfinite (k / 4) (k % 4) 1 else t

/-- A matching tile commits (R100): the writes are paid for, its staged outputs reach their destinations, all of them or none (R133, R245), and
its counts are kept.  It waits at its commit while an account is short, or a destination's accesses wait. -/
def State.commitTile (s : State) (k : Nat) (f : Flight) (x : Ctx) (ord : Nat) (e : TileEnd) (h : HostData) : State :=
  let n := k / 4
  let a := k % 4
  let need := s.commitBytes x ord e
  let (s0, m) := s.payPart x.stackAccts 64 (need - f.paid) (whoOf x.fn) x.part
  if f.paid + m < need then s0.updArr k fun r => { r with fly := some { f with paid := f.paid + m } }
  else match (if x.op = 0x41 then s0.seqCommit x h e.seqs else s0.putAll x.fn h e.out) with
    | (t, some (.held _)) => t.updArr k fun r => { r with fly := some { f with paid := need } }
    | (t, some er) => ((t.noteEnd k x.fn e).abandon k).failCmd x 8 ord er
    | (t, none) =>
      let s1 := ((t.noteEnd k x.fn e).settle n a f.charge f.ran).updArr k fun r => { r with fly := none, lastSid := some x.sid }
      ((s1.radd32 .tilesCommitted n a 1).noteConv x (isWide x) e.stats).tileDone x ord n

/-- A self-test slice ends (R306): passed, the array counts in the round; failed, it is fenced where ARRAY_FENCE is armed. -/
def State.testDone (s : State) (k : Nat) (ok : Bool) : State :=
  let s1 := (s.abandon k).updArr k fun a => { a with claim := false }
  let s2 := if ok then s1
    else
      let armed := s.rbit .safePolicy 0
      let t := s1.logFault { cls := 16, island := k / 4, action := if armed then 5 else 8, loc := cellLoc k }
      if armed then t.fenceArray k else t
  let s3 := s2.withEn fun e => { e with roundDone := if e.roundDone.contains k then e.roundDone else k :: e.roundDone }
  if (List.range 64).all fun i => s3.en.roundDone.contains i || s3.fenced i then
    s3.withEn fun e => { e with roundDone := [], roundAt := s.now, roundLogged := false }
  else s3

/-- TILE_COMMIT (R100, R101): the tile in flight on array `k` ends with what went wrong in it.  Its passes must have run, its clock run, and its
watchdog not have passed 8,000. -/
def State.tileCommit (s : State) (k : Nat) (er : TileErr) (h : HostData) : State :=
  match (s.arr k).fly with
  | none => s
  | some f =>
    if !f.ready || decide (8000 < f.ran) || s.rfld .islStatus 0 12 (k / 4) == 0 then s
    else match f.job with
      | .selftest => s.testDone k er.clean
      | .tile id ord attempt =>
        match s.ctx? id with
        | none => s.abandon k
        | some x =>
          let e := s.tileEnd x f ord er
          match e.found with
          | none => s.commitTile k f x ord e h
          | some r => (s.noteEnd k x.fn e).tileMismatch k x ord attempt r

/-- TILE_WATCHDOG_EXPIRY (R101): the watchdog of the array has reached 8,000.  The tile is abandoned and never retried.  DESIGN CHOICE (log 66):
for a self-test slice, TILE_ABANDONED shows outcome 0 and attempt 1. -/
def State.watchdog (s : State) (k : Nat) : State :=
  match (s.arr k).fly with
  | none => s
  | some f =>
    if f.ran < 8000 then s
    else
      let s1 := (s.abandon k).radd32 .tileWatchdog (k / 4) (k % 4) 1
      match f.job with
      | .selftest =>
        ((s1.updArr k fun a => { a with claim := false }).logFault
          { cls := 2, island := k / 4, action := 0, loc := cellLoc k }).abandonedEvent k none 0 1 2 0
      | .tile id ord attempt =>
        match s1.ctx? id with
        | some x => (s1.updArr k fun a => { a with lastSid := some x.sid }).tilePolicy k x ord attempt 2 2
        | none => s1

/-- SELFTEST_ROUND_OVERRUN (R84): a round has not finished 40 ms after it began. -/
def State.roundOverrun (s : State) : State :=
  if s.en.roundLogged || decide (ticks s.en.roundAt s.now < 40000000) then s
  else
    let at_ := ((List.range 64).find? fun k => !s.en.roundDone.contains k && !s.fenced k).getD 0
    (s.withEn fun e => { e with roundLogged := true }).logFault { cls := 16, island := 33, action := 0, late := true, loc := cellLoc at_ }

end Sys2Proof.Machine
end

