-- ==== Sys2Proof/Machine/Slices.lean ====
section
/-! DEFINITION. SLICE_END: an engine commits the slice it runs and takes the lowest-key item that waits on it (R108, R109, R281). -/

namespace Sys2Proof.Machine

/-- The engine state of an engine. -/
def State.eng (s : State) (e : Engine) : EngSt := s.en.eng.get e

/-- The state with an engine changed. -/
def State.updEng (s : State) (e : Engine) (f : EngSt → EngSt) : State := s.withEn fun n => { n with eng := n.eng.upd e f }

/-- The island whose clock an engine runs on (Table 01.3). -/
def engIsland : Engine → Nat
  | .memCopy m => 16 + m
  | .memZero m => 16 + m
  | .gather m => 16 + m
  | .decode => 32
  | .frame => 32
  | .locale => 32
  | .quisto u => 30 + u
  | .sealPort u => 30 + u

/-- An item assigned to one engine may run on another: any gather engine takes a gather or an update (R164), either unit's sealed-page port a
sealing (R16). -/
def engServes : Engine → Engine → Bool
  | .gather _, .gather _ => true
  | .sealPort _, .sealPort _ => true
  | a, b => decide (a = b)

/-! ### Commit -/

/-- Units of a sliced command in order, each done, waiting or failed, at most `n`. -/
def State.runUnits (f : State → Ctx → Nat → UnitRes) : (n : Nat) → State → CtxId → State
  | 0, s, _ => s
  | n + 1, s, id =>
    match s.ctx? id with
    | none => s
    | some x =>
      match x.work with
      | .units e total d sl a b =>
        if total ≤ d then s
        else match f s x d with
          | .wait t => t
          | .fail t w er => t.failCmd x w sl er
          | .done t => State.runUnits f n (t.updCtx id fun y => { y with work := .units e total (d + 1) sl a b }) id
      | _ => s

/-- Unit `k` of a model load (R57): one slot, paid for first. -/
def State.slotUnit (s : State) (x : Ctx) (k : Nat) : UnitRes :=
  match s.loadWanted x with
  | none => .wait s
  | some (h, size, _) =>
    s.unitGate x (cdiv (min 524288 (size - 524288 * k)) 64 * 64) fun t =>
      match t.loadUnit x x.ten h k with
      | (u, none) => .done u
      | (u, some e) => .fail u 4 e

/-- What follows the last unit of a sliced command. -/
def State.unitsDone (s : State) (x : Ctx) (aux : Nat) : State :=
  match x.op with
  | 0x82 => s.finish x.id stDone (w32 (fld (x.w 6) 0 25))
  | 0x83 => s.finish x.id stDone (w32 (x.w 8))
  | 0x70 => s.sealDone x aux
  | 0x43 => (s.dropFam x.ten (fld (x.w 2) 0 8)).finish x.id stDone 0
  | _ =>
    if 0x50 ≤ x.op ∧ x.op ≤ 0x55 then
      match s.intJob? x.id with
      | some j => s.endIntJob x j.status j.detail
      | none => s
    else match s.loadWanted x with
      | some (h, _, _) => match s.model? x.ten h with
        | some m => s.loadDone x x.ten h m
        | none => s
      | none => s

/-- Commits up to `n` units of a command that counts its own units, and completes it after the last. -/
def State.sliceUnits (s : State) (id : CtxId) (n : Nat) (f : State → Ctx → Nat → UnitRes) : State :=
  let s1 := State.runUnits f n s id
  match s1.ctx? id with
  | none => s1
  | some x =>
    match x.work with
    | .units e total d sl a b =>
      if total ≤ d then s1.unitsDone x a
      else s1.updCtx id fun y => { y with work := .units e total d (sl + 1) a b }
    | _ => s1

/-- One slice of a Quisto command (R281, R283): the actual time replaces the reservation, and a residue mismatch discards the slice. -/
def State.sliceQuisto (s : State) (e : Engine) (x : Ctx) (u total k sl a : Nat) (ok : Bool) : State :=
  match s.qJob? x.id with
  | none => s
  | some j =>
    let settle (t : State) (ns : Nat) : State :=
      match (t.eng e).slice with
      | some c => (t.settleSlice c ns).updEng e fun g => { g with slice := none }
      | none => t
    let ns := cdiv (qCycles x j k * 1000) (s.mhz (30 + u))
    if !ok then
      let (t, again) := (settle s ns).residueFault x u sl (a + 1)
      if again then t.updCtx x.id fun y => { y with work := .units e total k sl (a + 1) 0 } else t
    else match s.qSlice x j u k total with
      | .wait t => settle t 0
      | .next t => (settle t ns).updCtx x.id fun y => { y with work := .units e total (k + 1) (sl + 1) 0 0 }
      | .failed t w er => (settle t ns).failCmd x w sl er
      | .ended t st d => (settle t ns).endQuisto x st d

/-- Commits the slice of a command on an engine: `n` units (R108: a slice lasts at most 20 µs, which bounds units of a stated rate). -/
def State.commitSlice (s : State) (e : Engine) (id : CtxId) (n : Nat) (ok : Bool) (h : HostData) : State :=
  match s.ctx? id with
  | none => s
  | some x =>
    match x.work with
    | .units (.quisto u) total k sl a _ => s.sliceQuisto e x u total k sl a ok
    | .units .. =>
      match x.op with
      | 0x32 => s.gatherSlice x n h
      | 0x33 => s.updateSlice x n h
      | 0x34 => s.updateSlice x n h
      | 0x31 => s.writeBackSlice x n
      | 0x35 => s.writeBackSlice x n
      | 0x43 => s.sliceUnits id n fun t y _ => t.retireUnit y
      | 0x70 => s.sliceUnits id 1 fun t y _ => t.sealUnit y
      | 0x82 => s.sliceUnits id (min n 1250) fun t y k => t.memZeroUnit y k
      | 0x83 => s.sliceUnits id n fun t y k => t.memCopyUnit y h k
      | _ =>
        if 0x50 ≤ x.op ∧ x.op ≤ 0x55 then s.sliceUnits id n fun t y k => t.intUnit y h k
        else s.sliceUnits id (min n 4) fun t y k => t.slotUnit y k
    | _ => s

/-! ### Taking the next item (R109) -/

/-- A command's slice is in progress on some engine. -/
def State.onEngine (s : State) (id : CtxId) : Bool := s.en.eng.ents.any fun e => e.2.job == some id

/-- The accounts and the size of the check a slice must pass before it starts (R79): the Quisto reservation, or the first request. -/
def sliceNeed (x : Ctx) (e : Engine) : List Acct × Nat :=
  match e with
  | .quisto _ => (workAccts x.fn x.part 3, 20000)
  | .gather _ => (workAccts x.fn x.part 1, 64)
  | .memCopy _ => (workAccts x.fn x.part 1, 64)
  | .memZero _ => (workAccts x.fn x.part 1, 4096)
  | .sealPort _ => (workAccts x.fn x.part 1, 64)
  | _ => ([], 0)

/-- Commands that wait on an engine for their next slice, in fetch order. -/
def State.waitingOn (s : State) (e : Engine) : List Ctx :=
  s.cp.ctxs.filter fun x => x.phase != .done && !s.onEngine x.id && (match x.work with
    | .units e' total d _ _ _ => engServes e e' && decide (d < total)
    | _ => false)

/-- The items in turn after the one served last. -/
def turnAfter (last : Option CtxId) (xs : List Ctx) : List Ctx :=
  let l := xs.dropWhile fun x => some x.id ≠ last
  l.drop 1 ++ (xs.takeWhile fun x => some x.id ≠ last) ++ l.take 1

/-- Owners take turns (R109): the functions 0 to 64, and background work as owner 65; the distance of an owner from the one served last. -/
def State.turnOf (s : State) (e : Engine) (owner : Nat) : Nat := (owner + 65 - (s.eng e).last) % 66

/-- Among items of the lowest key, the owner after the one served last, and of one owner the item after the one served last (R109). -/
def State.nextItem (s : State) (e : Engine) (xs : List Ctx) : Option Ctx :=
  let key (x : Ctx) : Nat := (s.keyOf x).1
  let turn (x : Ctx) : Nat := s.turnOf e x.fn
  match turnAfter (s.eng e).item xs with
  | [] => none
  | x :: l => some (l.foldl (fun m y => if key y < key m ∨ (key y = key m ∧ turn y < turn m) then y else m) x)

/-- A Quisto slice starts: its reservation is charged (R79). -/
def State.startSlice (s : State) (e : Engine) (x : Ctx) : State :=
  match e with
  | .quisto _ => (s.charge (.ten x.ten 3) 20000).updEng e fun g => { g with slice := some (x.ten, s.cp.periodStart, s.now) }
  | _ => s

/-- The first slice of a command of family 0x5 starts as its engine takes it (R256); a command that waits, or ends, does not hold
the engine (R109). -/
def State.startInt (s : State) (e : Engine) (x : Ctx) (h : HostData) : State :=
  if 0x50 ≤ x.op ∧ x.op ≤ 0x55 ∧ s.intJob? x.id = none then
    let t := s.intStart x h
    if t.intJob? x.id = none then t.updEng e fun g => { g with job := none } else t
  else s

/-- Background work waits on an engine (Table 05.7): pages of the dirty list on a zero engine, block moves of its island on a copy engine. -/
def State.bgWaits (s : State) (e : Engine) : Bool :=
  match e with
  | .memZero m => decide (s.mem.dirty.get m ≠ [])
  | .memCopy m => s.emb.moves.any fun v => pageIsland (v.src / 512) == m
  | _ => false

/-- The account and the first request of background work, checked before its slice starts (R79); a block move has been charged as a whole. -/
def bgNeed : Engine → List Acct × Nat
  | .memZero _ => ([.bg 3], 4096)
  | _ => ([], 0)

/-- Background work carries the key 2⁶⁴ − 1, and takes its turn among items of that key (R109). -/
def State.bgFirst (s : State) (e : Engine) (x : Option Ctx) : Bool :=
  match x with
  | none => true
  | some x => decide ((s.keyOf x).1 = 2 ^ 64 - 1) && decide (s.turnOf e 65 < s.turnOf e x.fn)

/-- The engine takes the waiting item with the lowest key whose accounts pass, a command's or background work; the others wait (R81, R109). -/
def State.takeItem (s : State) (e : Engine) (h : HostData) : State :=
  let xs := if s.cp.halted then [] else s.waitingOn e
  let pass (x : Ctx) : Bool := s.pass (sliceNeed x e).1 (sliceNeed x e).2
  let s1 := (xs.filter fun x => !pass x).foldl (fun t x => t.waitOn (sliceNeed x e).1 (sliceNeed x e).2 (whoOf x.fn) x.part) s
  let bg := s1.pass (bgNeed e).1 (bgNeed e).2
  let s2 := if s1.bgWaits e && !bg then s1.waitOn (bgNeed e).1 (bgNeed e).2 0xFF none else s1
  let next := s2.nextItem e (xs.filter pass)
  if s2.bgWaits e && bg && s2.bgFirst e next then s2.updEng e fun g => { g with bg := true, last := 65 }
  else match next with
    | none => s2
    | some x => ((s2.updEng e fun g => { g with job := some x.id, last := x.fn, item := some x.id }).startSlice e x).startInt e x h

/-- A background slice ends on an engine (R108): nothing while a command's slice runs there, or while a command goes before it.  The engine is
then free for the next item. -/
def State.bgSlice (s : State) (e : Engine) (f : State → State) : State :=
  let g := s.eng e
  let xs := if s.cp.halted then [] else (s.waitingOn e).filter fun x => s.pass (sliceNeed x e).1 (sliceNeed x e).2
  if g.job.isSome || !(g.bg || s.bgFirst e (s.nextItem e xs)) then s
  else ((f s).updEng e fun g => { g with bg := false, last := 65 }).takeItem e []

/-- SLICE_END (R109): at a slice boundary of an engine whose clock runs, the slice of `n` units is committed and the next item taken.  `ok`
is what the residue checks of a Quisto slice found (R283).  A background slice ends with its own event. -/
def State.sliceEnd (s : State) (e : Engine) (n : Nat) (ok : Bool) (h : HostData) : State :=
  if s.rfld .islStatus 0 12 (engIsland e) = 0 then s
  else match (s.eng e).job with
    | some id =>
      -- the engine is free at the boundary; a command that completed has released it already
      ((s.commitSlice e id n ok h).updEng e fun g => { g with job := none, slice := none }).takeItem e h
    | none => if (s.eng e).bg && s.bgWaits e then s else (s.updEng e fun g => { g with bg := false }).takeItem e h

end Sys2Proof.Machine
end

