-- ==== Sys2Proof/Machine/Checks.lean ====
section
/-! DEFINITION. Checks 7, 8 and 9 of R44 by opcode: the operand ranges and the extents that a packet shows by itself.  What depends on an
object, a table or a family that an earlier command may still change is checked when the command begins. -/

namespace Sys2Proof.Machine

/-- COUNT and MAP_INDEX of the page commands (Table 10.2). -/
def pageConds (x : Ctx) (part : Bool) : List (Bool × Nat × Nat) :=
  let n := fld (x.w 2) 0 16
  [(decide (1 ≤ n) && decide (n ≤ 32768), 2, 0), (part || fld (x.w 2) 16 4 == 0, 2, 16), (decide (fld (x.w 3) 0 15 + n ≤ 32768), 3, 0)]

/-- An operand format that must be BF16 or FP32. -/
def fmt46 (f : Nat) : Bool := f == 4 || f == 6

/-- An output of `n` bytes at a word keeps clear of inputs (R278). -/
def lapC (x : Ctx) (w n : Nat) (exact : Bool) (ins : List (Nat × Nat)) : Bool × Nat × Nat :=
  (!lapBad (Qop.off x w) n exact (ins.map fun e => (Qop.off x e.1, e.2)), w, 0)

/-- A fence's owner as FENCE_WAIT may name it (R323): the PF names any; a tenant itself, or another tenant of its partition. -/
def State.fenceOwnerOk (s : State) (x : Ctx) : Bool :=
  let o := fld (x.w 2) 8 7
  match tenantOf x.fn with
  | none => decide (o ≤ 64)
  | some t => o == t || (decide (o < 64) && (s.tenPart t).isSome && s.tenPart o == s.tenPart t)

/-! ### Check 7: operand values (R44) -/

/-- Conditions of the matrix commands (Tables 06.2, 06.3, R118, R121). -/
def matConds (x : Ctx) : List (Bool × Nat × Nat) :=
  let g := x.gateOnly
  [(if g then decide (x.afmt ≤ 7) else (pairOf x.afmt x.wfmt).isSome, 2, 12),
   (decide (x.ofmt ≤ 7) && (x.ofmt != 7 || (!g && intPair x.afmt x.wfmt && x.a 12 == 0)), 2, 20),
   (g || bit (x.w 2) 10 || x.w 3 % 64 == 0, 3, lowBit 6 (x.w 3 % 64)),
   alignC (x.a 4) 4 64,
   (if g || !bit (x.w 2) 10 then (true, 6, 0) else alignC (x.a 6) 6 64),
   alignC (x.a 8) 8 64,
   (decide (1 ≤ x.mM), 10, 0),
   (g || decide (1 ≤ x.mK), 11, 0),
   (decide (1 ≤ x.mN), 11, 16),
   (if g && x.a 12 == 0 then (false, 12, 0) else alignC (x.a 12) 12 64),
   (decide (1 ≤ x.tileM), 14, 0),
   (decide (1 ≤ x.tileN), 14, 16),
   (decide (x.tileM * x.tileN ≤ 65536), 14, 0)]

/-- Conditions of GATHER_POOL that its packet shows (Table 08.2, R160). -/
def gatherConds (x : Ctx) : List (Bool × Nat × Nat) :=
  [(decide (GatherOp.pool x ≤ 4), 2, 10),
   (decide (GatherOp.ofmt x ≤ 6), 2, 16),
   (decide (1 ≤ GatherOp.bags x), 3, 0),
   (if GatherOp.bagLen x = 0 then (x.a 6 != 0, 6, 0) else zeroC (x.a 6) 6),
   (if GatherOp.pool x = 4 then (x.a 8 != 0, 8, 0) else zeroC (x.a 8) 8),
   alignC (x.a 10) 10 64]

/-- Conditions of MEM_COPY (R217). -/
def copyConds (x : Ctx) : List (Bool × Nat × Nat) :=
  let n := x.w 8 * 64
  [alignC (x.a 4) 4 64,
   ((isDev (x.a 4) || isDev (x.a 6)) &&
     !(isDev (x.a 4) && isDev (x.a 6) && overlap (offOf (x.a 4)) n (offOf (x.a 6)) n), 6, 0),
   alignC (x.a 6) 6 64,
   (decide (1 ≤ x.w 8), 8, 0)]

/-- Conditions of the Quisto commands that name a unit (Table 13.2, R278, R280, R292). -/
def quistoConds (x : Ctx) : List (Bool × Nat × Nat) :=
  let n := Qop.count x 0
  let unit : Bool × Nat × Nat := (Qop.unit x != 3, 2, 0)
  let opt (w : Nat) : Bool × Nat × Nat := if x.a w = 0 then (true, w, 0) else devC (x.a w) w
  match x.op with
  | 0x72 => [unit, devC (x.a 4) 4]
  | 0x73 => [unit, (decide (1 ≤ n) && decide (n ≤ 256), 3, 0), devC (x.a 4) 4, devC (x.a 6) 6, devC (x.a 8) 8, devC (x.a 10) 10,
      devC (x.a 12) 12]
  | 0x74 => [unit, devC (x.a 4) 4, devC (x.a 6) 6]
  | 0x75 =>
    let on (b : Bool) (w : Nat) : Bool × Nat × Nat := if b then devC (x.a w) w else (true, w, 0)
    let cn := if x.sub = 5 then 16 * n else if Qop.bcast x then 8 else 8 * n
    let ins := (if x.sub < 5 then [(4, objBytes .shares n)] else []) ++ (if x.sub < 2 then [(6, objBytes .shares n)] else []) ++
      (if x.sub = 2 ∨ x.sub = 4 then [(8, cn)] else [])
    [unit, on (x.sub < 5) 4, on (x.sub < 2 || x.sub == 5) 6, on (x.sub == 2 || x.sub == 4 || x.sub == 5) 8, devC (x.a 10) 10,
      lapC x 10 (objBytes .shares (if x.sub = 3 then 1 else n)) true ins]
  | 0x76 => [unit, devC (x.a 4) 4, devC (x.a 8) 8, lapC x 8 (objBytes .triples n) false [(4, objBytes .maskKey 1)]]
  | 0x77 =>
    let scal := if Qop.bcast x then 1 else n
    let sn := if x.sub < 2 then (if Qop.b9 x = 0 then objBytes .scalar scal else 32 * scal) else 64 * n
    let ins := (if x.sub ≠ 1 then [(4, 64 * n)] else []) ++ (if x.sub < 3 then [(6, sn)] else [])
    [unit, (decide (1 ≤ n) && decide (n ≤ 65536), 3, 0), (if x.sub = 1 then (true, 4, 0) else devC (x.a 4) 4),
      (if x.sub = 3 then (true, 6, 0) else devC (x.a 6) 6), devC (x.a 8) 8, lapC x 8 (64 * n) false ins, opt 10,
      (if x.a 10 = 0 then (true, 10, 0) else lapC x 10 n false ins)]
  | 0x78 =>
    let ins := [(4, (n - 1) * Qop.msgPitch x + Qop.msgLen x)] ++ (if x.sub = 1 then [(10, objBytes .scalar n)] else [])
    [unit, (decide (Qop.msgLen x ≤ 1024), 2, 16), devC (x.a 4) 4, devC (x.a 6) 6, devC (x.a 8) 8, lapC x 8 (64 * n) false ins,
      (if x.sub = 1 then devC (x.a 10) 10 else (true, 10, 0)), opt 12, (if x.a 12 = 0 then (true, 12, 0) else lapC x 12 n false ins)]
  | 0x79 => [unit, devC (x.a 4) 4]
  | 0x7A => [unit, devC (x.a 4) 4, devC (x.a 6) 6, devC (x.a 8) 8,
      lapC x 8 (objBytes .maskKey 1) false [(4, objBytes .scalar 1), (6, 64)]]
  | 0x7B => [unit, devC (x.a 4) 4, devC (x.a 6) 6, (if x.sub = 1 then devC (x.a 8) 8 else (true, 8, 0)), devC (x.a 10) 10]
  | 0x7C => [unit, devC (x.a 4) 4, devC (x.a 6) 6, devC (x.a 10) 10,
      lapC x 10 (objBytes .shares n) false [(4, 8 * n), (6, objBytes .maskKey 1)]]
  | _ => []

/-- The conditions an opcode puts on its operand values, in word order. -/
def State.conds (s : State) (x : Ctx) : List (Bool × Nat × Nat) :=
  match x.op with
  | 0x04 => [(s.fenceOwnerOk x, 2, 8)]
  | 0x10 => [(decide (1 ≤ x.w 3) && decide (x.w 3 ≤ 134217728), 3, 0), devC (x.a 4) 4]
  | 0x20 => matConds x
  | 0x21 => matConds x
  | 0x22 => [alignC (x.a 4) 4 64]
  | 0x23 => [alignC (x.a 4) 4 64]
  | 0x30 => [alignC (x.a 4) 4 64]
  | 0x32 => gatherConds x
  | 0x33 => [(decide (1 ≤ fld (x.w 3) 0 17) && decide (fld (x.w 3) 0 17 ≤ 65536), 3, 0)]
  | 0x34 => [(decide (1 ≤ x.w 3), 3, 0)]
  | 0x36 => [alignC (x.a 4) 4 64]
  | 0x40 => [alignC (x.a 4) 4 64]
  | 0x41 => [(fmt46 (fld (x.w 2) 8 4), 2, 8), (fmt46 (fld (x.w 2) 12 4), 2, 12), (decide (1 ≤ fld (x.w 3) 0 16), 3, 0),
      (decide (1 ≤ fld (x.w 3) 16 16) && decide (fld (x.w 3) 16 16 ≤ 4096), 3, 16), alignC (x.a 4) 4 64, alignC (x.a 6) 6 64,
      alignC (x.a 8) 8 64, (decide (1 ≤ fld (x.w 10) 0 16), 10, 0)]
  | 0x42 => [(decide (1 ≤ fld (x.w 3) 0 16), 3, 0)]
  | 0x50 => [(decide (1 ≤ fld (x.w 2) 0 20), 2, 0), alignC (x.a 4) 4 64]
  | 0x51 => [(x.sub == 0 || fmt46 (fld (x.w 2) 0 4), 2, 0), (decide (1 ≤ fld (x.w 6) 0 20), 6, 0), (decide (1 ≤ fld (x.w 7) 0 16), 7, 0),
      alignC (x.a 8) 8 64]
  | 0x52 => [alignC (x.a 6) 6 64, (fmt46 (fld (x.w 9) 0 4), 9, 0)]
  | 0x53 => [(decide (1 ≤ fld (x.w 2) 0 10), 2, 0), alignC (x.a 4) 4 64, alignC (x.a 6) 6 64, alignC (x.a 8) 8 64,
      alignC (x.a 10) 10 64]
  | 0x54 => [([1, 3, 5].contains (fld (x.w 2) 0 3), 2, 0), ([1, 2].contains (fld (x.w 2) 3 2), 2, 3)]
  | 0x55 => [(decide (1 ≤ fld (x.w 2) 0 4) && decide (fld (x.w 2) 0 4 ≤ 7), 2, 0), alignC (x.a 4) 4 64, alignC (x.a 6) 6 64,
      alignC (x.a 8) 8 64, (decide (1 ≤ fld (x.w 10) 0 16) && decide (fld (x.w 10) 0 16 ≤ 4096), 10, 0)]
  | 0x70 => pageConds x false ++ [if x.a 6 = 0 then (true, 6, 0) else devC (x.a 6) 6]
  | 0x71 => pageConds x false
  | 0x80 => pageConds x (x.fn == 0)
  | 0x81 => pageConds x false
  | 0x82 => [alignC (x.a 4) 4 4096, devC (x.a 4) 4,
      (decide (1 ≤ fld (x.w 6) 0 25) && decide (fld (x.w 6) 0 25 ≤ 16777216), 6, 0)]
  | 0x83 => copyConds x
  | _ => quistoConds x

/-! ### Checks 8 and 9: extents -/

/-- Extents of the Quisto commands that their packets show: ordinary operands whole, objects by their header line (R278). -/
def quistoExts (x : Ctx) : List Ext :=
  let n := Qop.count x 0
  let e (w k : Nat) : Ext := ⟨w, x.a w, k⟩
  let opt (w k : Nat) : List Ext := if x.a w = 0 then [] else [e w k]
  match x.op with
  | 0x72 => [e 4 64]
  | 0x73 => [e 4 (16 * n)]
  | 0x75 =>
    (if x.sub < 5 then [e 4 64] else []) ++ (if x.sub < 2 ∨ x.sub = 5 then [e 6 64] else []) ++
    (if x.sub = 5 then [e 8 (16 * n)] else if x.sub = 2 ∨ x.sub = 4 then [e 8 (if Qop.bcast x then 8 else 8 * n)] else []) ++
    [e 10 (objBytes .shares (if x.sub = 3 then 1 else n))]
  | 0x76 => [e 4 64, e 8 (objBytes .triples n)]
  | 0x77 =>
    let scal := if Qop.bcast x then 1 else n
    (if x.sub = 1 then [] else [e 4 (64 * n)]) ++
    (if x.sub < 2 then [e 6 (if Qop.b9 x = 0 then 64 else 32 * scal)] else if x.sub = 2 then [e 6 (64 * n)] else []) ++
    [e 8 (64 * n)] ++ opt 10 n
  | 0x78 => [e 4 (if n = 0 then 0 else (n - 1) * Qop.msgPitch x + Qop.msgLen x), e 6 1, e 8 (64 * n)] ++
    (if x.sub = 1 then [e 10 64] else []) ++ opt 12 n
  | 0x79 => [e 4 (objBytes (if x.sub = 0 then .shares else .scalar) n)]
  | 0x7A => [e 4 64, e 6 64, e 8 (objBytes .maskKey 1)]
  | 0x7B => [e 4 64, e 6 64] ++ (if x.sub = 1 then [e 8 64] else [])
  | 0x7C => [e 4 (8 * n), e 6 64, e 10 (objBytes .shares n)]
  | _ => []

/-- The extents an opcode's packet shows, in word order. -/
def exts (x : Ctx) : List Ext :=
  let e (w k : Nat) : Ext := ⟨w, x.a w, k⟩
  let opt (w k : Nat) : List Ext := if x.a w = 0 then [] else [e w k]
  match x.op with
  | 0x10 => [e 4 (x.w 3)]
  | 0x20 => [e 4 (x.mM * pitch64 x.afmt x.mK)] ++ (if bit (x.w 2) 10 then [e 6 (weightBytes x)] else []) ++
      (if x.a 12 = 0 then [e 8 (x.mM * pitch64 x.ofmt x.mN)] else [e 12 64])
  | 0x21 => [e 4 (x.mM * pitch64 x.afmt x.mN), e 12 64]
  | 0x22 => [e 4 16]
  | 0x23 => [e 4 64]
  | 0x30 => [e 4 64]
  | 0x32 =>
    let k := GatherOp.bags x * GatherOp.bagLen x
    if GatherOp.bagLen x = 0 then [e 6 (4 * (GatherOp.bags x + 1))]
    else [e 4 (8 * k)] ++ (if GatherOp.pool x = 4 then [e 8 (4 * k)] else [])
  | 0x33 => [e 4 (8 * fld (x.w 3) 0 17)]
  | 0x36 => [e 4 (if x.sub = 0 then 128 else 512)]
  | 0x40 => [e 4 64]
  | 0x41 => [e 4 (16 * fld (x.w 3) 0 16)]
  | 0x42 => [e 4 (4 * fld (x.w 3) 0 16)] ++ opt 6 (8 * fld (x.w 3) 0 16)
  | 0x50 => [e 4 (x.w 3), e 6 64]
  | 0x51 =>
    let b := if x.sub = 0 ∨ fld (x.w 2) 0 4 = 6 then 4 else 2
    let r := fld (x.w 6) 0 20
    [e 4 (8 * r), e 8 ((r - 1) * (cdiv (fld (x.w 7) 0 16 * b) 64 * 64) + fld (x.w 7) 0 16 * b)]
  | 0x52 => [e 4 64] ++ opt 10 24
  | 0x53 => [e 4 64, e 6 (32 * fld (x.w 2) 0 10)]
  | 0x54 => [e 4 64, e 6 64]
  | 0x55 => [e 4 64]
  | 0x70 => opt 6 (4 * fld (x.w 2) 0 16)
  | 0x80 => opt 6 (4 * fld (x.w 2) 0 16)
  | 0x82 => [e 4 (4096 * fld (x.w 6) 0 25)]
  | 0x83 => [e 4 (64 * x.w 8), e 6 (64 * x.w 8)]
  | _ => quistoExts x

/-- Conditions and extents of a GATHER_POOL that depend on its table, where that is defined by now (R160). -/
def State.gatherAt (s : State) (x : Ctx) : List (Bool × Nat × Nat) × List Ext :=
  if x.op = 0x32 then match s.table? x.ten (GatherOp.tab x) with
    | some sh => (gatherTabConds x sh.d, gatherTabExts x sh.d)
    | none => ([(decide (1 ≤ GatherOp.pitch x), 14, 0)], [])
  else ([], [])

/-- Checks 8 and 9 of a packet: family 0x7 may name sealed pages (R31). -/
def State.extCheck (s : State) (x : Ctx) : Option (Nat × W32) :=
  if x.op / 16 = 7 then ((exts x).find? (s.extBad x.fn)).map fun e => (stRange, w32 e.word)
  else s.check89 x.fn (exts x ++ (s.gatherAt x).2)

/-- Check 6 for a sharded GATHER_POOL, whose table is defined by then, outside an explicit step (R160). -/
def State.gatherOut (s : State) (x : Ctx) (explicit : Bool) : Bool :=
  match s.table? x.ten (GatherOp.tab x) with
  | some sh => decide (1 < sh.d.group) && !explicit
  | none => false

/-- Check 6 (R35, R46, R67): word and bit of a misuse of step structure, given the open step's STEP_ID and whether it has had its
EXCHANGE. -/
def State.check6 (s : State) (x : Ctx) (opened : Option Step) : Option (Nat × Nat) :=
  match x.op, opened with
  | 0x01, some _ => some (0, 0)
  | 0x02, none => some (0, 0)
  | 0x02, some st => if w32 (x.w 2) = st.stepId then none else some (2, lowBit 32 ((w32 (x.w 2)) ^^^ st.stepId).toNat)
  | 0x60, none => some (0, 0)
  | 0x60, some st => if st.exchFetched then some (0, 0) else none
  | 0xF0, some _ => some (0, 0)
  | 0x32, none => if s.gatherOut x false then some (0, 0) else none
  | _, _ => none

/-- Checks 7 to 9, in order. -/
def State.check789 (s : State) (x : Ctx) (r : OpRow) : Option (Nat × W32) :=
  if !subopOk r x.words then some (stBadPacket, badDetail 0 16 7)
  else
    (rangeBad (s.conds x ++ (s.gatherAt x).1)).orElse fun _ => s.extCheck x

/-- The checks of R44 in the order of Table 02.14a: the status and DETAIL of the first that fails.  `opened` is the explicit step open at
fetch. -/
def State.packetCheck (s : State) (x : Ctx) (opened : Option Step) : Option (Nat × W32) :=
  let v1 := fld (x.w 1) 0 16
  let want := x.id.c.toNat % 65536
  if v1 ≠ want then some (stBadPacket, badDetail 1 (lowBit 16 (v1 ^^^ want)) 4)
  else match opRow x.op with
    | none => some (stBadPacket, badDetail 0 0 2)
    | some r =>
      if !s.check3 x.fn r then some (stBadPacket, badDetail 0 0 3)
      else match check4 r x.words with
        | some (w, b) => some (stBadPacket, badDetail w b 1)
        | none =>
          match check5 r x.words with
          | some (w, b) => some (stBadPacket, badDetail w b 5)
          | none =>
            match s.check6 x opened with
            | some (w, b) => some (stBadPacket, badDetail w b 6)
            | none => s.check789 x r

end Sys2Proof.Machine
end

