-- ==== Sys2Proof/Machine/Flits.lean ====
section
/-! DEFINITION. Flits on the wire: CRC-64, the Reed–Solomon code, headers and control payloads (R183 to R185). -/

namespace Sys2Proof.Machine

/-! ### CRC-64 (R183): least significant bit first -/

/-- One bit of the CRC register. -/
def crcBit (c : W64) : W64 := if c.toNat % 2 = 1 then (c >>> 1) ^^^ 0xC96C5795D7870F42 else c >>> 1

/-- One byte into the CRC register. -/
def crcByte (c : W64) (b : W8) : W64 := (List.range 8).foldl (fun x _ => crcBit x) (c ^^^ b.setWidth 64)

/-- CRC of a list of bytes: initial value and final XOR all ones. -/
def crc64 (l : List W8) : W64 := (l.foldl crcByte 0xFFFFFFFFFFFFFFFF) ^^^ 0xFFFFFFFFFFFFFFFF

/-! ### RS(160,140) over GF(2^8) (R183); the first byte of a codeword is its highest coefficient (assumption log 10) -/

/-- Multiplication by x. -/
def gfX (a : W8) : W8 := if a.toNat ≥ 128 then (a <<< 1) ^^^ 0x1D else a <<< 1

/-- Product in the field. -/
def gfMul (a b : W8) : W8 :=
  ((List.range 8).foldl (fun (p : W8 × W8) i => (if b.toNat.testBit i then p.1 ^^^ p.2 else p.1, gfX p.2)) ((0 : W8), a)).1

/-- Power of α. -/
def gfPow : Nat → W8
  | 0 => 1
  | n + 1 => gfX (gfPow n)

/-- The inverse, a^254. -/
def gfInv (a : W8) : W8 :=
  -- square and multiply: 254 = 2 + 4 + 8 + 16 + 32 + 64 + 128
  ((List.range 7).foldl (fun (p : W8 × W8) _ =>
    let q := gfMul p.2 p.2
    (gfMul p.1 q, q)) ((1 : W8), a)).1

/-- Value of a polynomial, highest coefficient first. -/
def gfEval (p : List W8) (x : W8) : W8 := p.foldl (fun a c => gfMul a x ^^^ c) 0

/-- The generator polynomial's coefficients below the leading 1, highest first: roots α^0 to α^19. -/
def rsGen : List W8 :=
  ((List.range 20).foldl (fun (g : List W8) i =>
    -- g · (x + α^i), with g including its leading coefficient
    (g ++ [0]).zipWith (fun a b => a ^^^ b) (0 :: g.map fun c => gfMul c (gfPow i))) [(1 : W8)]).drop 1

/-- The 20 parity bytes of 140 data bytes. -/
def rsParity (data : List W8) : List W8 :=
  data.foldl (fun (r : List W8) d =>
    let f := r.headD 0 ^^^ d
    (r.drop 1 ++ [0]).zipWith (fun a g => a ^^^ gfMul f g) rsGen) (List.replicate 20 0)

/-- The syndromes of a received codeword. -/
def rsSyndromes (w : List W8) : List W8 := (List.range 20).map fun i => gfEval w (gfPow i)

/-- The state of the locator search: locator and its last version (lowest first), length, gap, last discrepancy. -/
structure RsSt where
  c : List W8
  b : List W8
  l : Nat
  m : Nat
  d : W8

/-- Sum of two polynomials, lowest first. -/
def polyAdd (a b : List W8) : List W8 := (List.range (max a.length b.length)).map fun i => a.getD i 0 ^^^ b.getD i 0

/-- One step of the locator search at syndrome `n`. -/
def rsStep (syn : List W8) (s : RsSt) (n : Nat) : RsSt :=
  let disc := (List.range (s.l + 1)).foldl (fun (a : W8) i => if i ≤ n then a ^^^ gfMul (s.c.getD i 0) (syn.getD (n - i) 0) else a) 0
  if disc = 0 then { s with m := s.m + 1 }
  else
    let f := gfMul disc (gfInv s.d)
    let c' := polyAdd s.c (List.replicate s.m 0 ++ s.b.map (gfMul f))
    if 2 * s.l ≤ n then ⟨c', s.c, n + 1 - s.l, 1, disc⟩ else { s with c := c', m := s.m + 1 }

/-- Value of a polynomial, lowest coefficient first. -/
def gfEvalLow (p : List W8) (x : W8) : W8 := gfEval p.reverse x

/-- Corrects a codeword: the corrected bytes and the places changed, or none when it cannot be corrected (R183). -/
def rsCorrect (w : List W8) : Option (List W8 × List Nat) :=
  let syn := rsSyndromes w
  if syn.all (· == 0) then some (w, [])
  else
    let st := (List.range 20).foldl (rsStep syn) ⟨[1], [1], 0, 1, 1⟩
    -- byte i of the codeword has degree 159 - i
    let roots := (List.range 160).filter fun i => gfEvalLow st.c (gfInv (gfPow (159 - i))) = 0
    if 10 < st.l ∨ roots.length ≠ st.l then none
    else
      let omega := (List.range 20).map fun k =>
        (List.range (k + 1)).foldl (fun (a : W8) i => a ^^^ gfMul (st.c.getD i 0) (syn.getD (k - i) 0)) 0
      let deriv := (List.range st.c.length).map fun k => if k % 2 = 0 then st.c.getD (k + 1) 0 else 0
      let fixed := w.zipIdx.map fun e =>
        if roots.contains e.2 then
          let x := gfPow (159 - e.2)
          let xi := gfInv x
          e.1 ^^^ gfMul x (gfMul (gfEvalLow omega xi) (gfInv (gfEvalLow deriv xi)))
        else e.1
      if (rsSyndromes fixed).all (· == 0) then some (fixed, roots) else none

/-! ### Flit bytes (Table 09.1) -/

/-- Every other byte. -/
def everyOther : (fuel : Nat) → List W8 → List W8
  | 0, _ => []
  | _, [] => []
  | n + 1, a :: l => a :: everyOther n (l.drop 1)

/-- A flit from header and payload: CRC and both parities added. -/
def sealFlit (hdr payload : List W8) : List W8 :=
  let body := sliceB hdr 0 16 ++ sliceB payload 0 256
  let data := body ++ toBytes 8 (crc64 body).toNat
  data ++ rsParity (everyOther 140 data) ++ rsParity (everyOther 140 (data.drop 1))

/-- Interleaves two lists of bytes. -/
def interleave : List W8 → List W8 → List W8
  | a :: l, b :: m => a :: b :: interleave l m
  | _, _ => []

/-- A received flit after correction: bytes 0 to 271 and the places corrected, as byte numbers of the flit; none if it is bad
(R183). -/
def openFlit (f : List W8) : Option (List W8) × List Nat :=
  let f := sliceB f 0 320
  let c0 := everyOther 140 f ++ (f.drop 280).take 20
  let c1 := everyOther 140 (f.drop 1) ++ (f.drop 300).take 20
  match rsCorrect c0, rsCorrect c1 with
  | some (a, x), some (b, y) =>
    let at0 (i : Nat) : Nat := if i < 140 then 2 * i else 140 + i
    let at1 (i : Nat) : Nat := if i < 140 then 2 * i + 1 else 160 + i
    let data := interleave (a.take 140) (b.take 140)
    let body := data.take 272
    (if natAt data 272 8 = (crc64 body).toNat then some body else none, x.map at0 ++ y.map at1)
  | _, _ => (none, [])

/-- The header of a flit (Table 09.2). -/
def flitHeader (kind : Nat) (f : Flit) (ack : Nat) : List W8 :=
  toBytes 16 (kind % 16 + f.cls % 4 * 16 + b01 f.fwd * 64 + b01 f.last * 128 + f.seq % 65536 * 2 ^ 8 + ack % 65536 * 2 ^ 24 +
    f.src % 65536 * 2 ^ 40 + f.dst % 65536 * 2 ^ 56 + f.txn % 1024 * 2 ^ 72 + f.off % 2 ^ 24 * 2 ^ 82)

/-- KIND and ACK of received flit bytes. -/
def rxKind (b : List W8) : Nat := fld (natAt b 0 16) 0 4
def rxAck (b : List W8) : Nat := fld (natAt b 0 16) 24 16

/-- The data flit of received bytes. -/
def rxFlit (b : List W8) : Flit :=
  let v := natAt b 0 16
  { cls := fld v 4 2, fwd := bit v 6, last := bit v 7, seq := fld v 8 16, src := fld v 40 16, dst := fld v 56 16
    txn := fld v 72 10, off := fld v 82 24, payload := sliceB b 16 256 }

/-- The ABORT field of a control flit (Table 09.3). -/
def abortBytes (m : Option AbortMsg) : List W8 :=
  match m with
  | none => toBytes 8 0
  | some m => toBytes 8 (m.src % 65536 + m.dst % 65536 * 2 ^ 16 + m.txn % 1024 * 2 ^ 32 + b01 (!m.ack) * 2 ^ 42 + b01 m.ack * 2 ^ 43)

end Sys2Proof.Machine
end

