-- ==== Sys2Proof/Machine/Exchange.lean ====
section
/-! DEFINITION. The Exchange: transfers at the requester, service at the owner, replicas, failures (R192 to R201, R205 to R208,
R163, R176). -/

namespace Sys2Proof.Machine

/-! ### Links and routes (R192, R193) -/

/-- The state with one link changed. -/
def State.updLink (s : State) (l : Nat) (f : Link → Link) : State := s.withLnk fun n => { n with links := n.links.upd l f }

/-- A link. -/
def State.link (s : State) (l : Nat) : Link := s.lnk.links.get l

/-- STATE of a link (Table 09.4): 0 DISABLED, 1 UNTRAINED, 2 TRAINING, 3 UP, 4 FAILED. -/
def State.linkState (s : State) (l : Nat) : Nat := s.rfld .lnkStatus 0 3 l

/-- A link is UP and both its ends have a device number. -/
def State.linkUsable (s : State) (l : Nat) : Bool := s.linkState l == 3 && s.rbit .lnkStatus 7 l

/-- This device's number. -/
def State.devNum (s : State) : Nat := s.rfld .lnkDevice 0 16

/-- The first hop towards a device: link, and whether the traffic is to be forwarded (R193). -/
def State.firstHop (s : State) (d : Nat) : Option (Nat × Bool) :=
  let peer (l : Nat) : Bool := s.rfld .lnkStatus 16 16 l == d
  match (List.range 16).find? fun l => s.linkUsable l && peer l with
  | some l => some (l, false)
  | none =>
    let direct := (List.range 16).any peer
    if direct && !s.rbit .exchPolicy 0 then none
    else match (List.range 64).find? fun i => s.rfld .route 0 16 i == d && s.rbit .route 31 i with
      | none => none
      | some i =>
        let v := s.rfld .route 16 4 i
        let a := s.rfld .route 20 4 i
        if s.linkUsable v then some (v, true)
        else if s.rbit .route 24 i && s.rbit .exchPolicy 0 && s.linkUsable a then some (a, true)
        else none

/-- TIMEOUT of GLB.EXCH_POLICY in ticks (Table 09.9; 0 acts as 1). -/
def State.exchTimeout (s : State) : Nat := max 1 (s.rfld .exchPolicy 8 8) * 100000

/-- Transactions taken on a link (R196, R207). -/
def State.txnsUsed (s : State) (l : Nat) : List Nat :=
  (s.lnk.xfers.filterMap fun x => if x.st = .live ∧ x.link = some l ∧ x.sent ≠ 0 then some x.txn else none) ++
  (s.lnk.zombies.filterMap fun z => if z.1 = l ∧ ticks z.2.2 s.now < s.exchTimeout then some z.2.1 else none)

/-- A further transfer may go to a link: with those whose first flit has not been sent yet there are fewer than 1,024 transactions. -/
def State.txnLeft (s : State) (l : Nat) : Bool :=
  decide ((s.txnsUsed l).length + (s.lnk.xfers.filter fun x => x.st = .live ∧ x.link = some l ∧ x.sent = 0).length < 1024)

/-- The lowest free transaction of a link: 1,024 at most. -/
def State.freeTxn (s : State) (l : Nat) : Option Nat :=
  let used := s.txnsUsed l
  (List.range (used.length + 1)).find? fun t => decide (t < 1024) && !used.contains t

/-- The state with one transfer changed. -/
def State.updXfer (s : State) (xid : Nat) (f : Xfer → Xfer) : State :=
  s.withLnk fun n => { n with xfers := n.xfers.map fun x => if x.xid = xid then f x else x }

/-- A transfer. -/
def State.xfer? (s : State) (xid : Nat) : Option Xfer := s.lnk.xfers.find? fun x => x.xid = xid

/-! ### Forward segments (R197) -/

/-- Row-area flits of a section (R198). -/
def XSec.flits (c : XSec) : Nat := cdiv (c.rows.length * c.pitch) 256

/-- ROW_FLITS of a transfer. -/
def rowFlitsOf (cs : List XSec) : Nat := cs.foldl (fun n c => n + c.flits) 0

/-- First row-area flit of section `k`. -/
def secBase (cs : List XSec) (k : Nat) : Nat := rowFlitsOf (cs.take k)

/-- The forward segment's bytes (Table 09.7), padded to whole flits. -/
def forwardBytes (cs : List XSec) (replFree q ten : Nat) (stepId : W32) (resend : Bool) : List W8 :=
  let items := cs.foldl (fun n c => n + c.rows.length) 0
  let hdr := toBytes 4 cs.length ++ toBytes 4 items ++ toBytes 4 (rowFlitsOf cs) ++ toBytes 4 replFree ++
    toBytes 4 stepId.toNat ++ toBytes 2 q ++ toBytes 1 ten ++ toBytes 1 (b01 resend) ++ List.replicate 40 0
  let body := cs.map fun c => toBytes 4 c.key.toNat ++ toBytes 4 c.rows.length ++ toBytes 4 c.vals.length ++ toBytes 4 0 ++
    (c.rows.map fun r => toBytes 8 r.2.2).flatten ++ (c.vals.map fun v => toBytes 4 v.1 ++ toBytes 4 v.2.toNat).flatten
  let all := hdr ++ body.flatten
  all ++ List.replicate ((256 - all.length % 256) % 256) 0

/-- Flits of a byte sequence. -/
def flitsOf (l : List W8) : Nat := cdiv l.length 256

/-- Free blocks of a tenant's replica pools that accept replicas (Table 09.7 REPL_FREE). -/
def State.replFree (s : State) (t : Nat) : Nat :=
  s.emb.tabs.ents.foldl (fun n e => match e.2 with
    | some sh => if e.1.1 = t ∧ sh.d.replicate then
        n + (sh.repl.length * 512 - (s.emb.replicas.filter fun r => r.ten = t ∧ r.tab = e.1.2).length) else n
    | none => n) 0

/-- The replica a row of a peer can be validated against. -/
def State.replicaOf (s : State) (t h dev blk : Nat) : Option Replica :=
  s.emb.replicas.find? fun r => r.ten = t ∧ r.tab = h ∧ r.dev = dev ∧ r.blk = blk ∧ ticks r.validated s.now < 100000000

/-- The sections of a step's requests to one device, in ascending TABLE_KEY order (R176, R197). -/
def State.sectionsFor (s : State) (sid dev : Nat) : List XSec :=
  let add (cs : List XSec) (r : Req) : List XSec :=
    match s.emb.gathers.find? fun g => g.gid = r.gid with
    | none => cs
    | some g =>
      let t := g.x.ten
      let h := GatherOp.tab g.x
      match s.table? t h with
      | none => cs
      | some sh =>
        let blk := sh.d.localOf r.row / sh.d.rpb
        let put (c : XSec) : XSec :=
          match s.replicaOf t h dev blk with
          | none => { c with rows := c.rows ++ [(r.gid, r.pos, r.row)] }
          | some rep =>
            match c.vals.findIdx? fun v => v.1 = blk with
            | some i => { c with deps := c.deps ++ [(i, r.gid, r.pos, r.row)] }
            | none => { c with vals := c.vals ++ [(blk, rep.version)], deps := c.deps ++ [(c.vals.length, r.gid, r.pos, r.row)] }
        if cs.any fun c => c.ten == t && c.tab == h then cs.map fun c => if c.ten = t ∧ c.tab = h then put c else c
        else cs ++ [put ⟨sh.d.key, t, h, sh.d.pitch, [], [], []⟩]
  let cs := (s.emb.reqs.filter fun r => r.sid = sid ∧ r.dev = dev).foldl add []
  cs.mergeSort fun a b => decide (a.key.toNat ≤ b.key.toNat)

/-! ### Events, completion (R201, R205, R206) -/

/-- EXCHANGE_PEER (Table 09.11). -/
def State.peerEvent (s : State) (x : Xfer) (outcome cause : Nat) : State :=
  let l := x.link.getD 0
  let e : EvRec :=
    { code := 0x0902, island := 24 + l / 4, queue := x.q, stepId := s.stepIdOf x.sid
      d0 := x.dev + outcome * 65536 + cause % 256 * 2 ^ 24, d1 := x.attempts, d2 := x.txn + l * 1024 }
  match s.lnk.exch.find? fun k => k.sid = x.sid with
  | some k => s.eventOf k.id x.fn e
  | none => s.event x.fn e

/-- Completes an Exchange whose transfers have all ended (R201, R205, R206); the implicit one counts a failure in its
STEP_END (§09.11). -/
def State.exchangeEnd (s : State) (e : Exch) : State :=
  let xs := s.lnk.xfers.filter fun x => x.sid = e.sid
  let failed := xs.filter fun x => x.st = .failed
  let refused := xs.filter fun x => x.refused ≠ []
  let s1 := (s.withLnk fun n =>
    { n with exch := n.exch.filter fun k => k.sid ≠ e.sid, xfers := n.xfers.filter fun x => x.sid ≠ e.sid })
  let s2 := (s1.withEmb fun m => { m.dropGathers (fun g => g.x.sid == e.sid) with reqs := m.reqs.filter fun r => r.sid ≠ e.sid }).dropReqPages e.sid
  let (st, d) : Nat × W32 :=
    match failed with
    | x0 :: rest =>
      let x := rest.foldl (fun m y => if y.dev < m.dev then y else m) x0
      (stFault, w32 (x.dev + (failed.map (·.dev)).dedup.length % 256 * 65536 + x.cause * 2 ^ 24))
    | [] => match refused with
      | x :: _ =>
        let first := e.firstRef.getD (x.dev, (x.refused.headD (0, 0)).2)
        (stRefused, w32 (first.1 + (refused.foldl (fun n y => n + y.refused.length) 0) % 256 * 65536 + first.2 * 2 ^ 24))
      | [] => (stDone, w32 ((xs.map (·.dev)).dedup.length % 128 + ((xs.filter fun x => x.resent ≠ 0).map (·.dev)).dedup.length % 256 * 256 +
          s.usSince e.begun * 65536))
  if e.implicit then
    let s3 := if 0x10 ≤ st then s2.updStep e.sid fun k => { k with failHi := k.failHi + 1 } else s2
    match s3.step? e.sid with
    | some k => s3.finish e.id stDone k.endDetail
    | none => s3.finish e.id stDone 0
  else s2.finish e.id st d

/-! ### Opening, failing and resending transfers (R193, R196, R205) -/

/-- Opens a transfer, on the first hop there is: it fails at once with cause 1 where there is none, and waits with its queue held where the link has
no transaction left, or has one that asked before it (R196).  Its transaction is taken when its first flit is sent. -/
def State.openXfer (s : State) (xid : Nat) : State :=
  match s.xfer? xid with
  | none => s
  | some x =>
    match s.firstHop x.dev with
    | none =>
      let x' := { x with st := .failed, cause := 1 }
      (s.updXfer xid fun _ => x').peerEvent x' 3 1
    | some (l, fwd) =>
      let before := s.lnk.xfers.any fun y => decide (y.xid < xid) && y.st == .waiting && (s.firstHop y.dev).map (·.1) == some l
      if before || !s.txnLeft l then (s.updXfer xid fun x => { x with st := .waiting }).hold x.q 5
      else
        let resend := decide (x.attempts ≠ 0)
        (x.secs.foldl (fun t c => t.stat c.ten c.tab 5 c.rows.length) s).updXfer xid fun x =>
          { x with
            st := .live
            link := some l
            fwd := fwd
            attempts := x.attempts + 1
            resent := if resend then (if x.link = some l then 2 else 1) else x.resent
            seg := forwardBytes x.secs (s.replFree (x.fn - 1)) x.q (x.fn - 1) (s.stepIdOf x.sid) resend
            sent := 0
            block := []
            blockNext := 0
            lastRx := s.now }

/-- Transfers that wait for a transaction try again, in order of request (R196). -/
def State.xfersPump (s : State) : State :=
  let s0 := s.withLnk fun n => { n with zombies := n.zombies.filter fun z => decide (ticks z.2.2 s.now < s.exchTimeout) }
  let s1 := ((s.lnk.xfers.filter fun x => x.st = .waiting).map (·.xid)).foldl (fun t k => t.openXfer k) s0
  s1.lnk.xfers.foldl (fun t x => if (t.lnk.xfers.all fun y => y.q ≠ x.q ∨ y.st ≠ .waiting) then t.unhold x.q 5 else t) s1

/-- Transfers for the requests a step has not carried yet, one per device (R195). -/
def State.openDevs (s : State) (x : Ctx) : State :=
  let devs := ((s.emb.reqs.filter fun r => r.sid = x.sid).map (·.dev)).dedup.mergeSort (· ≤ ·)
  let k0 := s.lnk.nextX
  let mk (i dev : Nat) : Xfer :=
    { xid := k0 + i, sid := x.sid, fn := x.fn, part := x.part, q := x.id.q, dev := dev, st := .waiting, link := none, txn := 0
      fwd := false, secs := s.sectionsFor x.sid dev, seg := [], sent := 0, attempts := 0, resent := 0, got := .of none, block := []
      blockNext := 0, ended := false, refused := [], cause := 0, lastRx := s.now }
  let s1 := (s.withLnk fun n =>
    { n with nextX := k0 + devs.length, xfers := n.xfers ++ (devs.zipIdx.map fun e => mk e.2 e.1) }).withEmb fun e =>
    { e with reqs := e.reqs.filter fun r => r.sid ≠ x.sid }
  (List.range devs.length).foldl (fun t i => t.openXfer (k0 + i)) s1

/-- Issues the replica rows that a transfer's validations have confirmed, as miss-tracker entries and accounts allow (R169, R201): a row whose
replica has gone is requested from its owner once more. -/
def State.replicaReads : (fuel : Nat) → State → (xid : Nat) → State
  | 0, s, _ => s
  | n + 1, s, xid =>
    match s.xfer? xid with
    | none => s
    | some x =>
      match x.todo with
      | [] => s
      | (k, gid, pos, row) :: rest =>
        let skip := s.updXfer xid fun y => { y with todo := rest }
        match x.secs[k]? with
        | none => State.replicaReads n skip xid
        | some c => match s.table? c.ten c.tab with
          | none => State.replicaReads n skip xid
          | some sh =>
            let l := sh.d.localOf row
            match s.emb.replicas.find? fun r => r.ten = c.ten ∧ r.tab = c.tab ∧ r.dev = x.dev ∧ r.blk = l / sh.d.rpb with
            | none => State.replicaReads n (skip.askAgain gid [pos]) xid
            | some r =>
              let need := physBytes (4096 * r.loc + l % sh.d.rpb * sh.d.pitch) sh.d.pitch
              let accts := workAccts x.fn x.part 1
              if s.missAvail x.part = 0 then s.hold x.q 3
              else if !s.pass accts need then s.waitOn accts need (whoOf x.fn) x.part
              else
                let j := s.emb.nextK
                State.replicaReads n ((skip.charges accts need).withEmb fun e =>
                  { e with
                    nextK := j + 1
                    reads := e.reads ++ [{ k := j, for_ := .gather gid pos, part := x.part, ten := c.ten, tab := c.tab, row := l, far := false
                                           repl := some r.loc }]
                    replicas := e.replicas.map fun q => if q = r then { q with use := q.use + 1 } else q }) xid

/-- A gather still has rows on their way, or a bag that waits to be written. -/
def State.bagsWait (s : State) (g : Gather) : Bool :=
  (s.emb.reads.any fun r => match r.for_ with
    | .gather k _ => k == g.gid
    | .serve .. => false) ||
  (List.range (GatherOp.bags g.x)).any fun j => !g.fin.contains j && g.ready j

/-- An Exchange goes on (R201): replica rows, bags, requests to be made again; it completes when every transfer is complete or has failed and
every bag that can be has been finalised. -/
def State.exchangePump (s : State) (sid : Nat) (h : HostData) : State :=
  match s.lnk.exch.find? fun e => e.sid = sid with
  | none => s
  | some e =>
    let s0 := s.lnk.xfers.foldl (fun t x => if x.sid = sid then State.replicaReads (x.todo.length + 1) t x.xid else t) s
    let s1 := s0.emb.gathers.foldl (fun t g => if g.x.sid = sid then t.gatherPump g.gid h else t) s0
    let s2 := match s1.ctx? e.id with
      | some x => if s1.emb.reqs.any (fun r => r.sid == sid) then s1.openDevs x else s1
      | none => s1
    if (s2.lnk.xfers.filter fun x => x.sid = sid).all (fun x => decide ((x.st = .complete ∨ x.st = .failed) ∧ x.todo = [])) &&
      !(s2.emb.gathers.any fun g => g.x.sid == sid && s2.bagsWait g) then s2.exchangeEnd e
    else s2

/-- Every Exchange goes on. -/
def State.exchangesPump (s : State) (h : HostData) : State := s.lnk.exch.foldl (fun t e => t.exchangePump e.sid h) s

/-- A transfer fails (R205), logged with class 7: ABORT where a path exists, another attempt while attempts and a first hop remain, else the transfer
has failed with the cause. -/
def State.failXfer (s : State) (xid cause : Nat) (h : HostData) : State :=
  match s.xfer? xid with
  | none => s
  | some x =>
    if x.st ≠ .live then s
    else
      let m : AbortMsg := ⟨s.devNum, x.dev, x.txn, false⟩
      let s0 := s.updXfer xid fun y => { y with st := .failed }
      let s1 := match x.link with
        | some l =>
          if x.sent = 0 then s0
          else if s.linkState l = 3 then (s0.sendAbort l m).withLnk fun n => { n with zombies := (l, x.txn, s.now) :: n.zombies }
          else match s.firstHop x.dev with
            | some (k, _) => s0.sendAbort k m
            | none => s0
        | none => s0
      let again := decide (x.attempts ≤ s.rfld .exchPolicy 1 2) && (s1.firstHop x.dev).isSome
      let sl := s1.logFault
        { cls := 7, island := 24 + x.link.getD 0 / 4, action := if again then 1 else 2, queue := x.q, tenant := whoOf x.fn
          part := x.part.getD 0xFF, stepId := s1.stepIdOf x.sid, loc := x.link.getD 0, detail := 0x60 }
      let s2 :=
        if again then sl.openXfer xid
        else
          let x' := { x with st := .failed, cause := if x.attempts ≤ s.rfld .exchPolicy 1 2 then 1 else cause }
          (sl.updXfer xid fun _ => x').peerEvent x' 3 x'.cause
      (s2.xfersPump).exchangePump x.sid h

/-- EXCHANGE begins (R195): one transfer per device the step's requests name. -/
def State.exchangeStart (s : State) (x : Ctx) (implicit : Bool) (h : HostData) : State :=
  let s0 := s.updStep x.sid fun k => { k with exchRun := true }
  let s1 := (s0.openDevs x).withLnk fun n => { n with exch := n.exch ++ [⟨x.sid, x.id, implicit, s.now, none⟩] }
  (s1.updCtx x.id fun y => { y with phase := .running, begunAt := s.now, work := .waits s.now 1 0 }).exchangePump x.sid h

/-! ### Receiving a return segment (R201) -/

/-- Delivers the rows of a transfer that flit `o` of the row area completes. -/
def State.poolFlit (s : State) (x : Xfer) (o : Nat) : State :=
  (x.secs.zipIdx).foldl (fun t e =>
    let c := e.1
    let base := secBase x.secs e.2
    if o < base ∨ base + c.flits ≤ o then t
    else
      let lo := (o - base) * 256 / c.pitch
      let n := max 1 (256 / c.pitch)
      (List.range n).foldl (fun u i =>
        match c.rows[lo + i]? with
        | none => u
        | some (gid, pos, _) =>
          let b := (lo + i) * c.pitch
          let fs := (List.range (cdiv c.pitch 256)).map fun j => x.got.get (base + b / 256 + j)
          if fs.any (·.isNone) then u
          else
            let bytes := (fs.map fun f => f.getD []).flatten
            u.deliver (.gather gid pos) (sliceB bytes (b % 256) c.pitch)) t) s

/-- Writes a block into the replica pool, paid for from accounts; where they do not pass, or its lines wait, the replica is not taken: a holder may
drop a replica at any time (R176). -/
def State.replicaPut (s : State) (as : List Acct) (loc : Nat) (data : List W8) : Option State :=
  if !s.pass as 4096 || (List.range 64).any fun i => (s.heldCause (64 * loc + i)).isSome then none
  else some ((s.charges as 4096).physWrite (4096 * loc) (sliceB data 0 4096)).1

/-- A replica is under validation, or rows of it are still to be read. -/
def State.replBusy (s : State) (r : Replica) : Bool :=
  s.emb.reads.any (fun q => q.repl == some r.loc) ||
  s.lnk.xfers.any fun x => x.dev == r.dev && (x.st == .live || x.st == .waiting || x.todo != []) &&
    x.secs.any fun c => c.ten == r.ten && c.tab == r.tab && c.vals.any fun v => v.1 == r.blk

/-- The rows that validation `i` of a section answers are to be read from the replica (R201). -/
def State.poolReplica (s : State) (x : Xfer) (k : Nat) (c : XSec) (i : Nat) : State :=
  s.updXfer x.xid fun y => { y with todo := y.todo ++ (c.deps.filter fun d => d.1 = i).map fun d => (k, d.2.1, d.2.2.1, d.2.2.2) }

/-- The rows that validation `i` of a section answers are pooled from the block the owner sent, which replaces the replica (R201). -/
def State.poolBlock (s : State) (c : XSec) (i : Nat) (data : List W8) : State :=
  match s.table? c.ten c.tab with
  | none => s
  | some sh =>
    let mine := c.deps.filter fun d => d.1 = i
    (mine.foldl (fun t d => t.deliver (.gather d.2.1 d.2.2.1) (blockRow sh.d (sh.d.localOf d.2.2.2) data)) s).stat c.ten c.tab 7 mine.length

/-- A granted block enters the replica pool, the least used replica leaving for it if the pool is full (R176). -/
def State.takeGrant (s : State) (t h dev blk : Nat) (version : W64) (data : List W8) : State :=
  match s.table? t h with
  | none => s
  | some sh =>
    let mine := s.emb.replicas.filter fun r => r.ten = t ∧ r.tab = h
    let put (u : State) (l : Nat) : State :=
      match u.replicaPut [.bg 1] l data with
      | some v => v.withEmb fun e => { e with replicas := e.replicas ++ [⟨t, h, dev, blk, version, s.now, 1, l⟩] }
      | none => u
    if !sh.d.replicate || mine.any (fun r => r.dev == dev && r.blk == blk) then s
    else match (subPages sh.repl).find? fun l => mine.all fun r => r.loc ≠ l with
      | some l => put s l
      | none =>
        match mine.filter fun r => !s.replBusy r with
        | [] => s
        | r0 :: rest =>
          let v := rest.foldl (fun m r => if r.use < m.use then r else m) r0
          put (s.withEmb fun e => { e with replicas := e.replicas.filter fun r => r ≠ v }) v.loc

/-- Reads the records of a block area up to END (Table 09.8). -/
def State.blockArea : (fuel : Nat) → State → (x : Xfer) → (b : List W8) → State × List (Nat × Nat)
  | 0, s, _, _ => (s, [])
  | n + 1, s, x, b =>
    let hd := ofBytes (b.take 64)
    let ty := fld hd 0 8
    let sec := fld hd 16 16
    let blk := fld hd 64 32
    let ver := w64 (fld hd 96 64)
    let data := (b.drop 64).take 4096
    match x.secs[sec]? with
    | none => if ty = 0xFF then (s, []) else State.blockArea n s x (b.drop (if ty = 2 ∨ ty = 3 then 4160 else 64))
    | some c =>
      let i := (c.vals.findIdx? fun v => v.1 = blk).getD c.vals.length
      let touch (t : State) (f : Replica → Replica) : State :=
        t.withEmb fun e => { e with replicas := e.replicas.map fun r =>
          if r.ten = c.ten ∧ r.tab = c.tab ∧ r.dev = x.dev ∧ r.blk = blk then f r else r }
      if ty = 0xFF then (s, [])
      else if ty = 1 then State.blockArea n ((touch s fun r => { r with validated := s.now }).poolReplica x sec c i) x (b.drop 64)
      else if ty = 2 then
        let s1 := match s.emb.replicas.find? fun r => r.ten = c.ten ∧ r.tab = c.tab ∧ r.dev = x.dev ∧ r.blk = blk with
          | some r => match s.replicaPut (workAccts x.fn x.part 1) r.loc data with
            | some t => touch t fun r => { r with validated := s.now, version := ver }
            | none => s.withEmb fun e => { e with replicas := e.replicas.filter fun q => q ≠ r }
          | none => s
        State.blockArea n (s1.poolBlock c i data) x (b.drop 4160)
      else if ty = 3 then State.blockArea n (s.takeGrant c.ten c.tab x.dev blk ver data) x (b.drop 4160)
      else
        let (t, l) := State.blockArea n s x (b.drop 64)
        (t, (sec, fld hd 8 8) :: l)

/-- A transfer is complete when END and every row-area flit of its unrefused sections have arrived (R201). -/
def Xfer.complete (x : Xfer) : Bool :=
  x.ended && (x.secs.zipIdx.all fun e => (x.refused.any fun r => r.1 == e.2) ||
    (List.range e.1.flits).all fun i => (x.got.get (secBase x.secs e.2 + i)).isSome)

/-- A flit of a return segment reaches its requester. -/
def State.rxReturn (s : State) (l : Nat) (f : Flit) (h : HostData) : State :=
  match s.lnk.xfers.find? fun x => x.st = .live ∧ x.link = some l ∧ x.sent ≠ 0 ∧ x.txn = f.txn ∧ x.dev = f.src with
  | none => s
  | some x =>
    let rf := rowFlitsOf x.secs
    let s1 :=
      if f.off < rf then
        if (x.got.get f.off).isSome then s.updXfer x.xid fun y => { y with lastRx := s.now }
        else
          let x1 := { x with got := x.got.set f.off (some f.payload), lastRx := s.now }
          (s.updXfer x.xid fun _ => x1).poolFlit x1 f.off
      else if f.off = rf + x.blockNext then
        let x1 := { x with block := x.block ++ f.payload, blockNext := x.blockNext + 1, lastRx := s.now }
        let s0 := s.updXfer x.xid fun _ => x1
        if f.last then
          let (t, refs) := State.blockArea (x1.block.length / 64 + 1) s0 x1 x1.block
          (t.updXfer x.xid fun y => { y with ended := true, refused := refs }).withLnk fun n =>
            { n with exch := n.exch.map fun e => if e.sid = x.sid then
              { e with firstRef := e.firstRef.orElse fun _ => refs.head?.map fun r => (x.dev, r.2) } else e }
        else s0
      else s.updXfer x.xid fun y => { y with lastRx := s.now }
    match s1.xfer? x.xid with
    | none => s1
    | some y =>
      let s2 := s1
      if y.complete then
        let s3 := s2.updXfer y.xid fun z => { z with st := .complete }
        let s4 := if y.resent ≠ 0 then s3.peerEvent y y.resent 0 else s3
        let s5 := match y.refused with
          | r :: _ => s4.peerEvent y 4 r.2
          | [] => s4
        (s5.xfersPump).exchangePump x.sid h
      else s2.exchangePump x.sid h

/-! ### Service at the owner (R199) -/

/-- The table that serves a key: among tables with GROUP_SIZE > 1, the lower handle. -/
def State.tableByKey (s : State) (key : W32) : Option ((Nat × Nat) × Shard) :=
  s.emb.tabs.ents.foldl (fun m e =>
    match e.2 with
    | some sh =>
      if sh.defining.isNone ∧ 1 < sh.d.group ∧ sh.d.key = key then
        match m with
        | some b => if e.1.2 < b.1.2 ∨ (e.1.2 = b.1.2 ∧ e.1.1 < b.1.1) then some (e.1, sh) else m
        | none => some (e.1, sh)
      else m
    | none => m) none

/-- A section as it is taken into service: checked whole (R199). -/
def State.takeSection (s : State) (src : Nat) (key : W32) (rows : List Nat) (vals : List (Nat × Nat)) : SSec :=
  match s.tableByKey key with
  | none => ⟨key, 0, 0, 0, rows, vals, some 1, .of none⟩
  | some (k, sh) =>
    let refuse : Option Nat :=
      if !sh.d.members.contains src then some 2
      else if (rows.any fun r => decide (sh.d.rows ≤ r) || sh.d.ownerOf r != sh.d.self) || vals.any (fun v => decide (sh.d.blocks ≤ v.1)) then
        some 3
      else if sh.retiring.isSome then some 4 else none
    ⟨key, k.1, k.2, sh.d.pitch, rows, vals, refuse, .of none⟩

/-- Row-area flits of rows at a pitch (R198). -/
def areaFlits (rows pitch : Nat) : Nat := cdiv (rows * pitch) 256

/-- Pitches of sections with an unknown key, from their row counts, that fill what the header leaves of the row area (R198): the first there are
(log 70). -/
def fitPitches : List Nat → (n : Nat) → Option (List Nat)
  | [], n => if n = 0 then some [] else none
  | r :: l, n => [16, 32, 64, 128, 256, 512, 1024, 2048, 4096].findSome? fun p =>
      if areaFlits r p ≤ n then (fitPitches l (n - areaFlits r p)).map (p :: ·) else none

/-- Sections without a pitch take those of a list, in order. -/
def setPitches : List SSec → List Nat → List SSec
  | [], _ => []
  | c :: l, ps => if c.pitch = 0 then { c with pitch := ps.headD 16 } :: setPitches l (ps.drop 1) else c :: setPitches l ps

/-- Once every section has come, the row area's size gives those with an unknown key their place (R198). -/
def Serve.laidOut (x : Serve) : Serve :=
  match x.hdr with
  | none => x
  | some hd =>
    if x.secs.length < natAt hd 0 4 then x
    else
      let known := x.secs.foldl (fun n c => n + areaFlits c.rows.length c.pitch) 0
      { x with secs := setPitches x.secs ((fitPitches ((x.secs.filter fun c => c.pitch = 0).map (·.rows.length)) (natAt hd 8 4 - known)).getD []) }

/-- Parses what has arrived of a forward segment into sections. -/
def State.parseServe : (fuel : Nat) → State → (sv : Nat) → State
  | 0, s, _ => s
  | n + 1, s, sv =>
    match s.lnk.serves.find? fun x => x.sv = sv with
    | none => s
    | some x =>
      match x.hdr with
      | none =>
        if x.buf.length < 64 then s
        else State.parseServe n (s.updServe sv fun y => { y with hdr := some (y.buf.take 64), buf := y.buf.drop 64 }) sv
      | some hd =>
        if natAt hd 0 4 ≤ x.secs.length ∨ x.buf.length < 16 then s
        else
          let nr := natAt x.buf 4 4
          let nv := natAt x.buf 8 4
          let len := 16 + 8 * (nr + nv)
          if x.buf.length < len then s
          else
            let rows := (List.range nr).map fun i => natAt x.buf (16 + 8 * i) 8
            let vals := (List.range nv).map fun i => (natAt x.buf (16 + 8 * (nr + i)) 4, natAt x.buf (20 + 8 * (nr + i)) 4)
            let c := s.takeSection x.src (w32 (natAt x.buf 0 4)) rows vals
            let k := x.secs.length
            let s1 := s.updServe sv fun y => Serve.laidOut
              { y with
                buf := y.buf.drop len
                secs := y.secs ++ [c]
                todo := if c.refuse.isSome then y.todo else y.todo ++ (List.range nr).map fun i => (k, i) }
            -- requests of the peer per block in this window (R176)
            let s2 := if c.refuse.isSome then s1 else s1.updTab c.ten c.tab fun sh =>
              { sh with peer := rows.foldl (fun p r => p.upd (x.src, sh.d.localOf r / sh.d.rpb) (· + 1)) sh.peer }
            State.parseServe n s2 sv

/-- Issues the lookups a service still has to make, as far as resources and the owner's accounts allow (R80, R199, R208). -/
def State.serveReads : (fuel : Nat) → State → (sv : Nat) → State
  | 0, s, _ => s
  | n + 1, s, sv =>
    match s.lnk.serves.find? fun x => x.sv = sv with
    | none => s
    | some x =>
      match x.todo with
      | [] => s
      | (k, i) :: rest =>
        let skip := s.updServe sv fun y => { y with todo := rest }
        match x.secs[k]? with
        | none => State.serveReads n skip sv
        | some c =>
          match s.table? c.ten c.tab with
          | none => State.serveReads n skip sv
          | some sh =>
            let part := s.tenPart c.ten
            let row := sh.d.localOf (c.rows.getD i 0)
            let line := s.lookupBytes c.ten c.tab row sh
            let reset := match part with
              | some p => s.pstate p == 4
              | none => false
            if reset || (s.lookupNeeds part c.ten c.tab row sh).isSome then s
            else if !s.pass (s.tenAccts c.ten 1) line then s.waitOn (s.tenAccts c.ten 1) line c.ten part
            else
              State.serveReads n ((skip.charges (s.tenAccts c.ten 1) line).lookup (.serve sv k i) part c.ten c.tab row) sv

/-- A 64-byte record of the block area (Table 09.8). -/
def blockRecord (ty reason sec : Nat) (key : W32) (blk : Nat) (ver : W64) : List W8 :=
  toBytes 64 (ty + reason % 256 * 256 + sec % 65536 * 65536 + key.toNat * 2 ^ 32 + blk % 2 ^ 32 * 2 ^ 64 + ver.toNat * 2 ^ 96)

/-- A block of a section that the service has read. -/
def Serve.blk? (x : Serve) (c : SSec) (b : Nat) : Option BlkCopy := x.blks.find? fun k => k.ten = c.ten ∧ k.tab = c.tab ∧ k.blk = b

/-- The next block to read for a service: one whose version differs from the requester's replica, or one to grant (R176, R199); its section, and
whether it is a grant. -/
def State.nextBlock (s : State) (x : Serve) : Option (Nat × Nat × Bool) :=
  (x.secs.zipIdx.findSome? fun e =>
    if e.1.refuse.isSome then none
    else match s.table? e.1.ten e.1.tab with
      | none => none
      | some sh => (e.1.vals.find? fun v => (sh.dir.get v.1).version.toNat % 2 ^ 32 != v.2 && (x.blk? e.1 v.1).isNone).map fun v =>
          (e.2, v.1, false)).orElse fun _ =>
  (x.grants.getD []).findSome? fun g => match x.secs[g.1]? with
    | some c => if c.refuse.isSome ∨ (s.table? c.ten c.tab).isNone ∨ (x.blk? c g.2).isSome then none else some (g.1, g.2, true)
    | none => none

/-- Reads the blocks a service has to send: from tier T1, or from their far tier (R170).  A block that answers a validation is charged as served
reads are (R80), and waits; a poisoned one refuses its section.  A block to grant is charged to the migration account, and left out where it
cannot be read now (R176, R199). -/
def State.readBlocks : (fuel : Nat) → State → (sv : Nat) → State
  | 0, s, _ => s
  | n + 1, s, sv =>
    match s.lnk.serves.find? fun x => x.sv = sv with
    | none => s
    | some x => match s.nextBlock x with
      | none => s
      | some (k, b, grant) =>
        let c := x.secs.getD k ⟨0, 0, 0, 16, [], [], none, .of none⟩
        let omit_ := s.updServe sv fun y => { y with grants := y.grants.map fun l => l.filter (· ≠ (k, b)) }
        match s.table? c.ten c.tab with
        | none => s
        | some sh =>
          let part := s.tenPart c.ten
          let accts := if grant then [Acct.bg 1] else s.tenAccts c.ten 1
          match sh.loc b with
          | some l =>
            if !s.pass accts 4096 then (if grant then State.readBlocks n omit_ sv else s.waitOn accts 4096 c.ten part)
            else
              let t := s.meetPhys (4096 * l) 4096
              match t.physRead (4096 * l) 4096 with
              | .error (.poison line) =>
                let u := t.radd32 .poisonReads (chanOf (line * 64)) 0 1
                State.readBlocks n (if grant then u.updServe sv fun y => { y with grants := y.grants.map fun l => l.filter (· ≠ (k, b)) }
                  else u.refuseSec sv k) sv
              | .error _ => if grant then State.readBlocks n omit_ sv else s
              | .ok bs => State.readBlocks n ((t.charges accts 4096).updServe sv fun y =>
                  { y with blks := y.blks ++ [⟨c.ten, c.tab, b, (sh.dir.get b).version, bs⟩] }) sv
          | none =>
            if s.emb.far.any fun o => o.ten == c.ten && o.tab == c.tab && o.blk == b && o.kind != .flush then s
            else if s.farAvail part = 0 then (if grant then State.readBlocks n omit_ sv else s)
            else s.farNew (FarOp.fresh s.freeFar .read part c.ten c.tab b (sh.driveOf b))

/-- Link bytes of the grants that services have chosen and not sent yet. -/
def State.grantBytes (s : State) : Nat :=
  s.lnk.serves.foldl (fun n x => n + (if x.block.isNone then 4160 * (x.grants.getD []).length
    else 256 * ((x.payers.drop x.sentBlock).filter (· = 64)).length)) 0

/-- The grants a responder adds for one section (R176): blocks the peer asked for often enough this window, as far as the peer has room, the
period's number of grants allows, and the migration link account passes. -/
def State.grantsFor (s : State) (x : Serve) (k : Nat) (c : SSec) (room : Nat) : State :=
  match s.table? c.ten c.tab with
  | none => s
  | some sh =>
    let th := s.rfld .embRepl 0 16
    let cand := sh.peer.ents.filter fun e => e.1.1 = x.src ∧ th ≤ e.2
    cand.foldl (fun t e =>
      let mine := match t.lnk.serves.find? fun y => y.sv = x.sv with
        | some y => y.grants.getD []
        | none => []
      if room ≤ mine.length ∨ t.rbit .embRepl 28 ∨ t.rfld .embRepl 16 12 ≤ t.emb.granted ∨ !sh.d.replicate ∨
          !t.pass [.bg 2] (t.grantBytes + 4160) then t
      else
        ((t.withEmb fun m => { m with granted := m.granted + 1 }).updTab c.ten c.tab fun q => { q with peer := q.peer.clear e.1 }).updServe x.sv
          fun y => { y with grants := y.grants.map (· ++ [(k, e.1.2)]) }) s

/-- Chooses the grants of a service, once (R176). -/
def State.chooseGrants (s : State) (x : Serve) : State :=
  if x.grants.isSome then s
  else
    let s0 := s.updServe x.sv fun y => { y with grants := some [] }
    x.secs.zipIdx.foldl (fun t e => if e.1.refuse.isSome then t else t.grantsFor x e.2 e.1 (natAt (x.hdr.getD []) 12 4)) s0

/-- Who pays for the flits of a block area made of records, each with its payer: a flit is charged for the record it begins with, the last one for
END (R203). -/
def payersOf (recs : List (List W8 × Nat)) (endPayer : Nat) : List Nat :=
  let bytes := (recs.map fun r => List.replicate r.1.length r.2).flatten
  let n := flitsOf (recs.map (·.1)).flatten
  (List.range n).map fun i => if i + 1 = n then endPayer else bytes.getD (256 * i) endPayer

/-- Builds the block area of a service once every row and block has been read: refusals, validations, blocks, grants, END (R198, R199). -/
def State.buildBlock (s : State) (x : Serve) : State :=
  let one (e : SSec × Nat) : List (List W8 × Nat) :=
    let c := e.1
    let pay := if c.refuse = some 1 then 65 else c.ten
    match c.refuse with
    | some r => [(blockRecord 4 r e.2 c.key 0 0, pay)]
    | none => match s.table? c.ten c.tab with
      | none => [(blockRecord 4 4 e.2 c.key 0 0, pay)]
      | some sh => c.vals.map fun v =>
          match x.blk? c v.1 with
          | some k => (blockRecord 2 0 e.2 c.key v.1 k.version ++ k.data, pay)
          | none => (blockRecord 1 0 e.2 c.key v.1 (sh.dir.get v.1).version, pay)
  let gr := (x.grants.getD []).filterMap fun g => (x.secs[g.1]?).bind fun c => (x.blk? c g.2).map fun k =>
    (blockRecord 3 0 g.1 c.key g.2 k.version ++ k.data, 64)
  let served := x.secs.foldl (fun n c => n + (if c.refuse.isSome then 0 else c.rows.length)) 0
  let owner := match x.secs.find? fun c => c.refuse ≠ some 1 with
    | some c => c.ten
    | none => 65
  let recs := (x.secs.zipIdx.map one).flatten ++ gr ++ [(blockRecord 0xFF 0 0 0 served 0, owner)]
  let all := (recs.map (·.1)).flatten
  s.updServe x.sv fun y =>
    { y with block := some (all ++ List.replicate ((256 - all.length % 256) % 256) 0), payers := payersOf recs owner }

/-- Every section has arrived and every row of the unrefused ones has been read. -/
def Serve.allRead (x : Serve) : Bool :=
  (match x.hdr with
    | some hd => x.secs.length == natAt hd 0 4
    | none => false) && x.todo.isEmpty &&
  x.secs.all fun c => c.refuse.isSome || (List.range c.rows.length).all fun i => (c.got.get i).isSome

/-- A service goes on: lookups, and its block area when everything is read. -/
def State.servePump (s : State) (sv : Nat) : State :=
  let s1 := match s.lnk.serves.find? fun x => x.sv = sv with
    | some x => State.serveReads (x.todo.length + 1) s sv
    | none => s
  match s1.lnk.serves.find? fun x => x.sv = sv with
  | some x =>
    let reset := x.secs.any fun c => c.refuse.isNone && (match s1.tenPart c.ten with
      | some p => s1.pstate p == 4
      | none => false)
    if !x.whole || !x.allRead || x.block.isSome || reset then s1
    else
      let s0 := s1.chooseGrants x
      let s2 := State.readBlocks ((x.secs.map (·.vals.length)).sum + s0.rfld .embRepl 16 12 + 1) s0 sv
      match s2.lnk.serves.find? fun x => x.sv = sv with
      | some y => if (s2.nextBlock y).isNone then s2.buildBlock y else s2
      | none => s2
  | none => s1

/-- Every service goes on. -/
def State.servesPump (s : State) : State := s.lnk.serves.foldl (fun t x => t.servePump x.sv) s

/-- A flit of a forward segment reaches its responder. -/
def State.rxForward (s : State) (l : Nat) (f : Flit) (fwdBack : Bool) : State :=
  let k := s.lnk.nextX
  let fresh : Serve :=
    { sv := k, link := l, src := f.src, txn := f.txn, fwd := fwdBack, arrival := s.now, buf := [], hdr := none, secs := []
      todo := [], sentRows := [], block := none, sentBlock := 0, payers := [], grants := none, whole := false, blks := [] }
  let same (x : Serve) : Bool := x.src == f.src && x.txn == f.txn && x.link == l
  let started : State := s.withLnk fun n =>
    { n with nextX := k + 1, serves := (n.serves.filter fun x => !same x) ++ [fresh] }
  let (s0, sv) : State × Nat :=
    match s.lnk.serves.find? fun x => same x && !x.whole && f.off != 0 with
    | some x => (s, x.sv)
    | none => (started, k)
  let s1 := s0.updServe sv fun x => { x with buf := x.buf ++ f.payload, whole := x.whole || f.last }
  ((State.parseServe (f.payload.length + 2) s1 sv)).servePump sv

/-- Row-area flits of a service, by section. -/
def SSec.flits (c : SSec) : Nat := areaFlits c.rows.length c.pitch

/-- The payload of row-area flit `o` if all its rows have been read; refused sections have none (R198, R199). -/
def Serve.rowFlit (x : Serve) (o : Nat) : Option (List W8) :=
  (x.secs.foldl (fun (a : Nat × Option (List W8)) c =>
    let n := c.flits
    if a.1 ≤ o ∧ o < a.1 + n ∧ c.refuse.isNone then
      let byte0 := (o - a.1) * 256
      let rows := (List.range (max 1 (256 / c.pitch))).map fun i => byte0 / c.pitch + i
      let have_ := rows.all fun r => decide (c.rows.length ≤ r) || (c.got.get r).isSome
      let body := (rows.map fun r => if r < c.rows.length then (c.got.get r).getD [] else []).flatten
      (a.1 + n, if have_ then some (sliceB body (if c.pitch ≤ 256 then 0 else byte0 % c.pitch) 256) else none)
    else (a.1 + n, a.2)) (0, none)).2

/-- Row-area flits of a service: ROW_FLITS of the segment's header (R198). -/
def Serve.rowArea (x : Serve) : Nat := natAt (x.hdr.getD []) 8 4

/-- The flits a service could send next, in order: row-area flits whose rows are read, then the block area when every row-area
flit has been sent (R198). -/
def Serve.nextFlits (x : Serve) : List (Nat × List W8 × Bool) :=
  -- behind a section with an unknown key the layout is known when every section has come
  let laid := (x.secs.takeWhile fun c => c.pitch ≠ 0).foldl (fun n c => n + c.flits) 0
  let rows := ((List.range (min laid x.rowArea)).filter fun o => !x.sentRows.contains o).filterMap fun o => (x.rowFlit o).map fun b => (o, b, false)
  if rows ≠ [] ∨ x.secs.any (fun c => c.pitch == 0) then rows
  else match x.block with
    | none => []
    | some b =>
      let n := flitsOf b
      (List.range (n - x.sentBlock)).map fun i => (x.rowArea + x.sentBlock + i, sliceB b ((x.sentBlock + i) * 256) 256, x.sentBlock + i + 1 == n)

/-- Every row-area flit of section `k` has been sent. -/
def Serve.rowsSent (x : Serve) (k : Nat) : Bool :=
  match x.secs[k]? with
  | some c =>
    let base := (x.secs.take k).foldl (fun n c => n + c.flits) 0
    (List.range c.flits).all fun i => x.sentRows.contains (base + i)
  | none => true

/-- A function-level reset of a tenant refuses every section of its tables not yet served (R208): one with row flits, validations or grants still
to be sent. -/
def State.refuseSections (s : State) (ten : Nat) : State :=
  s.withLnk fun n =>
    { n with serves := n.serves.map fun x =>
      let goes (c : SSec) (k : Nat) : Bool := c.ten == ten && c.refuse.isNone && x.sentBlock == 0 && (!x.rowsSent k || c.vals != [] || x.block.isNone)
      { x with
        secs := x.secs.zipIdx.map fun e => if goes e.1 e.2 then { e.1 with refuse := some 5 } else e.1
        grants := x.grants.map fun l => l.filter fun g => !((x.secs[g.1]?).any fun c => c.ten == ten)
        block := if x.secs.zipIdx.any fun e => goes e.1 e.2 then none else x.block
        todo := x.todo.filter fun k => match x.secs[k.1]? with
          | some c => c.ten ≠ ten
          | none => true } }

end Sys2Proof.Machine
end

