-- ==== Sys2Proof/Machine/Links.lean ====
section
/-! DEFINITION. The Nimeg links: link states, training and failure, flits received and sent, control slots, the equalisation
loop (R184 to R191, R194, R202, R203). -/

namespace Sys2Proof.Machine

/-! ### States (R188, R189) -/

/-- LINK_STATE on the PF ring (Table 09.11). -/
def State.linkEvent (s : State) (l cause : Nat) : State :=
  s.event 0 { code := 0x0901, island := 24 + l / 4
              d0 := l + s.linkState l * 16 + s.rfld .lnkStatus 3 4 l * 1024 + cause * 65536
              d1 := s.rfld .lnkStatus 16 16 l, d2 := s.rnat .retrains l % 2 ^ 32 }

/-- The UP link whose PEER is a device, where forwarded traffic for it goes (R194). -/
def State.linkTo (s : State) (d : Nat) : Option Nat :=
  (List.range 16).find? fun k => s.linkState k == 3 && s.rfld .lnkStatus 16 16 k == d

/-- A received flit buffer entry is freed (R186). -/
def State.freeBuf (s : State) (l vc : Nat) : State := s.updLink l fun k => { k with freed := k.freed.upd vc (· + 1) }

/-- A flit to be forwarded that cannot be (R194): counted on the link it came from, its buffer entry freed, FORWARD_DROP raised, and ABORT sent for its
transaction towards the requester. -/
def State.dropForward (s : State) (l : Nat) (f : Flit) : State :=
  let s1 := ((s.radd64 .fwdDrop l 0 1).freeBuf l (f.cls + 2)).event 0
    { code := 0x0903, island := 24 + l / 4, d0 := f.dst, d1 := f.src, d2 := f.txn }
  -- SRC of a forward flit is the requester, DST of a return flit
  let (a, b) := if f.cls = 0 then (f.src, f.dst) else (f.dst, f.src)
  s1.sendAbort ((s.linkTo a).getD l) ⟨a, b, f.txn, false⟩

/-- A link leaves UP: its width goes, its transfers fail, its services and its link-layer state are dropped, and with them the flits it was to forward
(R189, R194, R205). -/
def State.linkDrop (s : State) (l state : Nat) (h : HostData) : State :=
  let s1 := (s.rsetFld .lnkStatus 0 3 state l).rsetFld .lnkStatus 3 4 0 l
  let s2 := s1.updLink l fun k => { ({} : Link) with lanes := k.lanes, trainAt := s.now, afterFail := k.afterFail }
  let s3 := s2.withLnk fun n =>
    { n with serves := n.serves.filter fun x => x.link ≠ l, zombies := n.zombies.filter fun z => z.1 ≠ l }
  let s4 := (s.link l).forward.foldl (fun t e => t.dropForward e.1 e.2) s3
  ((s.lnk.xfers.filter fun x => x.st = .live ∧ x.link = some l).map (·.xid)).foldl (fun t k => t.failXfer k 1 h) s4

/-- The equaliser settings of a preset (Table 09.5a). -/
def eqPreset (p : Nat) : EqSet :=
  let (a, b, c, d) : Nat × Nat × Nat × Nat :=
    match p with
    | 0 => (4, 0, 0, 0)
    | 1 => (6, 0, 2, 4)
    | 2 => (8, 0, 4, 6)
    | 3 => (8, 1, 4, 8)
    | 4 => (10, 1, 6, 8)
    | 5 => (10, 2, 6, 10)
    | 6 => (12, 2, 8, 10)
    | 7 => (12, 2, 8, 12)
    | 8 => (14, 3, 10, 12)
    | 9 => (14, 4, 12, 14)
    | 10 => (15, 4, 12, 16)
    | 11 => (15, 6, 14, 16)
    | 12 => (6, 0, 0, 6)
    | 13 => (10, 0, 4, 12)
    | 14 => (12, 0, 8, 4)
    | _ => (15, 8, 16, 16)
  { ctle := a, pre2 := b, pre1 := c, post1 := d }

/-- LNK.EQ_STATE of a lane shows its settings (Table 09.5). -/
def State.showLane (s : State) (l n : Nat) : State :=
  let a := (s.link l).lanes.get n
  s.rput .eqState l n (a.ctle + a.pre2 * 16 + a.pre1 * 256 + a.post1 * 65536)

/-- A lane whose training starts from a preset: its peaking is applied, the partner's taps are requested (R191). -/
def Lane.preset (a : Lane) (g : EqSet) : Lane := { ctle := g.ctle, goal := g, tx := a.tx }

/-- Training starts: every lane from the preset (R188, R191). -/
def State.startTraining (s : State) (l : Nat) (afterFail : Bool) : State :=
  let s1 := (s.rsetFld .lnkStatus 0 3 2 l).updLink l fun k =>
    { k with
      lanes := (List.range 4).foldl (fun t n => t.upd n fun a => a.preset (eqPreset (s.rfld .eqCtrl 8 4 l))) k.lanes
      trainAt := s.now
      afterFail := afterFail }
  let s2 := if afterFail then s1.radd64 .retrains l 0 1 else s1
  (List.range 4).foldl (fun t n => t.showLane l n) s2

/-- LINK_FAIL (R189): FAILED, LINK_STATE raised, logged with class 7, and trained again at once with RETRAIN = 1. -/
def State.linkFail (s : State) (l cause : Nat) (h : HostData) : State :=
  let s1 := ((s.linkDrop l 4 h).linkEvent l cause).logFault { cls := 7, island := 24 + l / 4, action := 0, loc := l }
  if s.rbit .lnkCtrl 3 l then s1.startTraining l true else s1

/-- LINK_RETRY_LIMIT (R187, R189; a limit of 0 acts as 1). -/
def State.linkRetryLimit (s : State) (l : Nat) (h : HostData) : State :=
  if s.linkState l = 3 ∧ max 1 (s.rfld .lnkCtrl 8 4 l) ≤ (s.link l).nakCnt then s.linkFail l 1 h else s

/-- LINK_CONTROL_LOSS (R189): no good control flit for 1,000 ticks. -/
def State.linkControlLoss (s : State) (l : Nat) (h : HostData) : State :=
  if s.linkState l = 3 ∧ 1000 ≤ ticks (s.link l).lastCtl s.now then s.linkFail l 2 h else s

/-- LINK_LOCK_LOSS (R189). -/
def State.linkLockLoss (s : State) (l : Nat) (h : HostData) : State := if s.linkState l = 3 then s.linkFail l 3 h else s

/-- Width and first lane that the good lanes allow (R189): all four, or with DEGRADE = 1 a pair, or the lowest one. -/
def trainWidth (good : Nat) (degrade : Bool) : Option (Nat × Nat) :=
  if good % 16 = 15 then some (4, 0)
  else if !degrade then none
  else if good % 4 = 3 then some (2, 0)
  else if good / 4 % 4 = 3 then some (2, 2)
  else (((List.range 4).find? fun n => bit good n).map fun n => (1, n))

/-- A lane that has trained: the partner has applied the preset's taps, and the loop's measurement begins (R190, R191). -/
def Lane.trained (a : Lane) (corr : Nat) : Lane :=
  { a with ctle := a.goal.ctle, pre2 := a.goal.pre2, pre1 := a.goal.pre1, post1 := a.goal.post1, sent := none, trying := none, prevE := 0, base := corr }

/-- LINK_TRAINING_COMPLETE (R188, R189): `good` names in [3:0] the good lanes and in [7:4] those on which no signal is detected.  UP at the widest
width the good lanes allow; UNTRAINED where a lane has no signal; FAILED where DEGRADE = 0 forbids the width, or no lane is good. -/
def State.linkTrainingComplete (s : State) (l good : Nat) : State :=
  if s.linkState l ≠ 2 then s
  else if good / 16 % 16 ≠ 0 then (s.rsetFld .lnkStatus 0 3 1 l).updLink l fun k => { k with trainAt := s.now }
  else match trainWidth good (s.rbit .lnkCtrl 2 l) with
    | none => (s.rsetFld .lnkStatus 0 3 4 l).linkEvent l 4
    | some (w, n0) =>
      let s1 := (s.rsetFld .lnkStatus 0 3 3 l).rsetFld .lnkStatus 3 4 w l
      let s2 := s1.updLink l fun k =>
        { ({} : Link) with
          lanes := (List.range 4).foldl (fun t n => t.upd n fun a => a.trained (s.rnat .fecCorr l n)) k.lanes
          lastCtl := s.now, lane0 := n0, trainAt := k.trainAt }
      ((List.range 4).foldl (fun t n => t.showLane l n) s2).linkEvent l 4

/-- LINK_REEXAMINE (R188): an UNTRAINED enabled link is examined again after 100 ms; a signal starts training. -/
def State.linkReexamine (s : State) (l : Nat) (signal : Bool) : State :=
  if s.linkState l = 1 ∧ s.rbit .lnkCtrl 0 l ∧ 100000000 ≤ ticks (s.link l).trainAt s.now then
    (if signal then s.startTraining l false else s.updLink l fun k => { k with trainAt := s.now })
  else s

/-- LINK_ENABLE (Table 09.4): a write of ENABLE = 1 while 0 starts training. -/
def State.linkEnable (s : State) (l : Nat) : State :=
  if s.rbit .lnkCtrl 0 l then s
  else ((s.rsetFld .lnkCtrl 0 1 1 l).startTraining l false).linkEvent l 5

/-- LINK_DISABLE (Table 09.4): DISABLED; what was open on the link fails. -/
def State.linkDisable (s : State) (l : Nat) (h : HostData) : State :=
  if !s.rbit .lnkCtrl 0 l then s
  else ((s.rsetFld .lnkCtrl 0 1 0 l).linkDrop l 0 h).linkEvent l 5

/-- LINK_DEVICE_WRITE (R192): no effect while any transaction is open. -/
def State.linkDeviceWrite (s : State) (n : Nat) : State :=
  if (List.range 16).any fun l => s.txnsUsed l ≠ [] then s
  else
    let s1 := s.rput .lnkDevice 0 0 (n % 65536)
    (List.range 16).foldl (fun t l =>
      if t.linkState l = 3 then
        t.rsetFld .lnkStatus 7 1 (b01 (n % 65536 ≠ 0xFFFF ∧ t.rfld .lnkStatus 16 16 l ≠ 0xFFFF)) l
      else t) s1

/-! ### Receiving (R184 to R187, R194) -/

/-- A SEQ lies before another, modulo 2^16. -/
def seqLt (a b : Nat) : Bool := decide (0 < (b + 65536 - a) % 65536) && decide ((b + 65536 - a) % 65536 < 32768)

/-- Settings moved by one trial of the rotation, or back. -/
def EqSet.move (a : EqSet) (t : Nat) (back : Bool) : EqSet :=
  let up := (t % 2 == 0) != back
  let f (v : Nat) : Nat := if up then v + 1 else v - 1
  match t / 2 with
  | 0 => { a with ctle := f a.ctle }
  | 1 => { a with pre2 := f a.pre2 }
  | 2 => { a with pre1 := f a.pre1 }
  | _ => { a with post1 := f a.post1 }

/-- A lane whose trial, if any, is taken back. -/
def Lane.revert (a : Lane) : Lane :=
  match a.trying with
  | some t => { a with goal := a.goal.move t true, trying := none }
  | none => a

/-- A flit is rejected: NAK in the next control flit; a trial in force, unless the loop is frozen, is reverted at once (R14, R187, R190). -/
def State.reject (s : State) (l : Nat) : State :=
  let back (a : Lane) : Lane := if s.rbit .eqCtrl 0 l then a else { a.revert with ctle := a.revert.goal.ctle }
  let s1 := s.updLink l fun k =>
    { k with
      rejecting := true
      nak := true
      lanes := (List.range 4).foldl (fun t n => t.upd n back) k.lanes }
  (List.range 4).foldl (fun t n => t.showLane l n) s1

/-- An ACK releases every flit below its value (R187). -/
def State.rxAcked (s : State) (l ack : Nat) : State :=
  s.updLink l fun k =>
    { k with unacked := k.unacked.filter fun f => !seqLt f.seq ack, resend := k.resend.filter fun f => !seqLt f.seq ack }

/-- A flit to be forwarded (R194): onto the link whose PEER is its DST, or dropped. -/
def State.rxForwarded (s : State) (l : Nat) (f : Flit) : State :=
  match s.linkTo f.dst with
  | some k => s.updLink k fun x => { x with forward := x.forward ++ [(l, { f with fwd := false })] }
  | none => s.dropForward l f

/-- An accepted data flit (R184, R186, R187). -/
def State.rxData (s : State) (l : Nat) (f : Flit) (h : HostData) : State :=
  let s1 := (s.updLink l fun k => { k with rxSeq := (k.rxSeq + 1) % 65536, rejecting := false }).radd64 .rxFlits l 0 1
  if 2 ≤ f.cls then s1.radd64 .rxBadkind l 0 1
  else if f.fwd then s1.rxForwarded l f
  else if f.cls = 0 then ((s1.rxForward l f (s.rfld .lnkStatus 16 16 l != f.src)).freeBuf l 0)
  else (s1.rxReturn l f h).freeBuf l 1

/-- Bytes corrected, by lane (R183, Table 09.10). -/
def State.countFec (s : State) (l : Nat) (places : List Nat) : State :=
  let w := max 1 (s.rfld .lnkStatus 3 4 l)
  places.foldl (fun t i => t.radd64 .fecCorr l ((s.link l).lane0 + i % w) 1) s

/-- An ABORT or ABORT_ACK message arrives (R194, R207). -/
def State.rxAbort (s : State) (l : Nat) (m : AbortMsg) (h : HostData) : State :=
  let me := s.devNum
  if m.ack then
    if m.src = me then (s.withLnk fun n => { n with zombies := n.zombies.filter fun z => !(z.1 = l ∧ z.2.1 = m.txn) }).xfersPump
    else match s.linkTo m.src with
      | some k => s.sendAbort k m
      | none => s
  else if m.dst = me then
    -- the service that came by this link, or where there is none the one that came by another (log 73)
    let mine (x : Serve) : Bool := x.src == m.src && x.txn == m.txn
    let here := s.lnk.serves.any fun x => mine x && x.link == l
    (s.withLnk fun n => { n with serves := n.serves.filter fun x => !(mine x && (!here || x.link == l)) }).sendAbort l
      { m with ack := true }
  else if m.src = me then
    match s.lnk.xfers.find? fun x => x.st = .live ∧ x.link = some l ∧ x.sent ≠ 0 ∧ x.txn = m.txn ∧ x.dev = m.dst with
    | some x => s.failXfer x.xid 3 h
    | none => s
  else
    let to_ := if s.rfld .lnkStatus 16 16 l = m.dst then m.src else m.dst
    match s.linkTo to_ with
    | some k => s.sendAbort k m
    | none => s

/-- A lane's EQ word arrives (R190, R191): the partner acknowledges the taps asked of it, which are then in force, or asks for taps of this
device's transmitter. -/
def Lane.hear (a : Lane) (w : W64) : Lane :=
  let a1 := match a.sent with
    | some g => if Config.eqField 1 w ≠ 0 then { a with pre2 := g.pre2, pre1 := g.pre1, post1 := g.post1, sent := none } else a
    | none => a
  if Config.eqField 0 w ≠ 0 then
    { a1 with asked := some { pre2 := min 8 (Config.eqField 2 w), pre1 := min 16 (Config.eqField 3 w), post1 := min 16 (Config.eqField 4 w) } }
  else a1

/-- A lane at a control slot: peaking that is wanted is applied, the partner's request is applied and acknowledged, and taps wanted and not in force are
requested, unless the loop is frozen (R190, R191).  Answers the EQ word. -/
def Lane.speak (a : Lane) (frozen : Bool) : W64 × Lane :=
  let want := !frozen && (a.goal.pre2 != a.pre2 || a.goal.pre1 != a.pre1 || a.goal.post1 != a.post1)
  (Config.eqWord want a.asked.isSome a.goal.pre2 a.goal.pre1 a.goal.post1,
    { a with ctle := a.goal.ctle, tx := a.asked.getD a.tx, asked := none, sent := if want then some a.goal else a.sent })

/-- A good control flit (R185, Table 09.3). -/
def State.rxControl (s : State) (l : Nat) (b : List W8) (h : HostData) : State :=
  let k := s.link l
  let dev := natAt b 48 2
  let both := b01 (dev ≠ 0xFFFF ∧ s.devNum ≠ 0xFFFF)
  let s1 := s.rput .lnkStatus l 0 (setFld (setFld (setFld (s.rnat .lnkStatus l) 7 1 both) 8 4 (natAt b 50 1 % 16)) 16 16 dev)
  let echo := natAt b 36 8
  let s2 := if echo = 0 then s1 else s1.rput .rtt l 0 ((ticks (w64 echo) s.now + 2 ^ 64 - natAt b 44 4) % 2 ^ 64)
  let nak := bit (natAt b 18 1) 0
  let nseq := natAt b 16 2
  let s3 := s2.updLink l fun x =>
    { x with
      credits := (List.range 4).foldl (fun c v => c.upd v (· + natAt b (20 + 2 * v) 2)) x.credits
      lastCtl := s.now
      peerTime := w64 (natAt b 28 8)
      nakSeq := if nak then nseq else x.nakSeq
      nakCnt := if nak then (if k.nakSeq = nseq ∧ k.nakCnt ≠ 0 then k.nakCnt + 1 else 1) else x.nakCnt
      resend := if nak then x.unacked.filter fun f => !seqLt f.seq nseq else x.resend
      lanes := (List.range 4).foldl (fun t n => t.upd n fun a => a.hear (w64 (natAt b (52 + 8 * n) 8))) x.lanes }
  let s3 := (List.range 4).foldl (fun t n => t.showLane l n) s3
  let av := natAt b 84 8
  if bit av 42 ∨ bit av 43 then s3.rxAbort l ⟨fld av 0 16, fld av 16 16, fld av 32 10, bit av 43⟩ h else s3

/-- Any received flit (R183, R184). -/
def State.rxAny (s : State) (l : Nat) (bytes : List W8) (h : HostData) : State :=
  if s.linkState l ≠ 3 ∧ s.linkState l ≠ 2 then s
  else
    let (body, places) := openFlit bytes
    let s1 := s.countFec l places
    match body with
    | none => (s1.radd64 .badFlits l 0 1).reject l
    | some b =>
      -- a reserved KIND is discarded whole (R184)
      if 3 ≤ rxKind b then s1.radd64 .rxBadkind l 0 1
      else
      let s2 := s1.rxAcked l (rxAck b)
      match rxKind b with
      | 0 => s2
      | 1 =>
        let f := rxFlit b
        if s.linkState l ≠ 3 then s2
        else if f.seq = (s2.link l).rxSeq then s2.rxData l f h
        else if (s2.link l).rejecting then s2 else s2.reject l
      | _ => s2.rxControl l b h

/-! ### Sending (R185, R186, R202, R203) -/

/-- Puts one data flit on the wire. -/
def State.wire (s : State) (l : Nat) (f : Flit) : State :=
  s.send (.flit l (sealFlit (flitHeader 1 f (s.link l).rxSeq) f.payload))

/-- First transmission of a flit: it takes the next SEQ and spends a credit of its virtual channel (R186, R187). -/
def State.sendFlit (s : State) (l : Nat) (f : Flit) : State :=
  let k := s.link l
  let g := { f with seq := k.txSeq }
  ((s.wire l g).updLink l fun x =>
    { x with
      txSeq := (x.txSeq + 1) % 65536
      unacked := x.unacked ++ [g]
      credits := x.credits.upd (f.cls + 2 * b01 f.fwd) (· - 1) }).radd64 .txFlits l 0 1

/-- Flits a link may send now on a virtual channel: its credits, the 1,024 unacknowledged, a frame of 16. -/
def State.room (s : State) (l vc : Nat) : Nat :=
  let k := s.link l
  min 16 (min (k.credits.get vc) (1024 - k.unacked.length))

/-- A frame a link could send (R202): key, transaction, accounts to charge, and its flits. -/
structure Frame where
  key : Nat
  txn : Nat
  accts : List Acct
  who : Nat
  part : Option Nat
  flits : List Flit
  /-- the transfer or service it belongs to -/
  xid : Option Nat
  sv : Option Nat

/-- The next frame of a transfer's forward segment. -/
def State.xferFrame (s : State) (l : Nat) (x : Xfer) : Option Frame :=
  let n := flitsOf x.seg
  let k := min (s.room l (2 * b01 x.fwd)) (n - x.sent)
  if k = 0 then none
  else
    let key := match s.step? x.sid with
      | some st => st.key.toNat
      | none => 2 ^ 64 - 1
    let x := if x.sent = 0 then { x with txn := (s.freeTxn l).getD 0 } else x
    some
      { key := key, txn := x.txn, accts := workAccts x.fn x.part 2, who := whoOf x.fn, part := x.part
        flits := (List.range k).map fun i =>
          ⟨0, x.fwd, x.sent + i + 1 == n, 0, s.devNum, x.dev, x.txn, x.sent + i, sliceB x.seg ((x.sent + i) * 256) 256⟩
        xid := some x.xid, sv := none }

/-- Who pays for a service's flit (R203): a tenant, 64 the migration account, 65 nobody. -/
def Serve.payer (x : Serve) (o : Nat) : Nat :=
  if x.rowArea ≤ o then x.payers.getD (o - x.rowArea) 65
  else (x.secs.foldl (fun (a : Nat × Nat) c =>
      let n := c.flits
      (a.1 + n, if a.1 ≤ o ∧ o < a.1 + n then c.ten else a.2)) (0, 65)).2

/-- The next frame of a service's return segment. -/
def State.serveFrame (s : State) (l : Nat) (x : Serve) : Option Frame :=
  -- service of a table whose owner's partition resets waits (R208)
  let waits := x.secs.any fun c => c.refuse.isNone && (match s.tenPart c.ten with
    | some p => s.pstate p == 4
    | none => false)
  let all := if waits then [] else x.nextFlits
  match all with
  | [] => none
  | (o0, _, _) :: _ =>
    let k := s.room l (1 + 2 * b01 x.fwd)
    let run := ((all.zipIdx.takeWhile fun e => e.1.1 == o0 + e.2 && x.payer e.1.1 == x.payer o0).map (·.1)).take k
    if run = [] then none
    else
      let who := x.payer o0
      some
        { key := x.arrival.toNat + s.rfld .exchPolicy 16 8 * 10000, txn := x.txn
          accts := if who < 64 then s.tenAccts who 2 else if who = 64 then [.bg 2] else []
          who := if who < 64 then who else 0xFF, part := if who < 64 then s.tenPart who else none
          flits := run.map fun e => ⟨1, x.fwd, e.2.2, 0, s.devNum, x.src, x.txn, e.1, e.2.1⟩
          xid := none, sv := some x.sv }

/-- The frame a link sends among those of the segments open on it: the lowest key whose accounts pass; equal keys rotate by
transaction (R202). -/
def pickFrame (lastTxn : Nat) (fs : List Frame) : Option Frame :=
  let before (a b : Frame) : Bool :=
    decide (a.key < b.key) || (a.key == b.key && ((decide (lastTxn < a.txn) && decide (b.txn ≤ lastTxn)) ||
      ((decide (lastTxn < a.txn) == decide (lastTxn < b.txn)) && decide (a.txn < b.txn))))
  fs.foldl (fun m f => match m with
    | none => some f
    | some g => if before f g then some f else some g) none

/-- An idle flit, with its ACK, where no data flit is eligible (R184, R185). -/
def State.idle (s : State) (l : Nat) : State :=
  s.send (.flit l (sealFlit (toBytes 16 ((s.link l).rxSeq * 2 ^ 24)) []))

/-- FRAME_TRANSMIT (R202): retransmissions, then forwarded flits, then the lowest-key eligible frame. -/
def State.frameTransmit (s : State) (l : Nat) : State :=
  if s.linkState l ≠ 3 then s
  else
    let k := s.link l
    if k.resend ≠ [] then
      let now_ := k.resend.take 16
      let s1 := now_.foldl (fun t f => t.wire l f) s
      (s1.updLink l fun x => { x with resend := x.resend.drop 16 }).radd64 .lnkRetries l 0 now_.length
    else
      match k.forward.find? fun e => decide (0 < s.room l e.2.cls) with
      | some e =>
        let s1 := (s.sendFlit l e.2).updLink l fun x => { x with forward := x.forward.erase e }
        (s1.radd64 .fwdFlits l 0 1).freeBuf e.1 (e.2.cls + 2)
      | none =>
        let s0 := (s.servesPump).xfersPump
        let fs := (s0.lnk.xfers.filterMap fun x => if x.st = .live ∧ x.link = some l then s0.xferFrame l x else none) ++
          (s0.lnk.serves.filterMap fun x => if x.link = l then s0.serveFrame l x else none)
        let cost (f : Frame) : Nat := 256 * f.flits.length
        let s1 := (fs.filter fun f => !s0.pass f.accts (cost f)).foldl (fun t f => t.waitOn f.accts (cost f) f.who f.part) s0
        match pickFrame k.lastTxn (fs.filter fun f => s0.pass f.accts (cost f)) with
        | none => s1.idle l
        | some f =>
          let s2 := f.flits.foldl (fun t g => t.sendFlit l g) (s1.charges f.accts (cost f))
          let s3 := s2.updLink l fun x => { x with lastTxn := f.txn }
          match f.xid, f.sv with
          | some xid, _ => s3.updXfer xid fun x => { x with sent := x.sent + f.flits.length, txn := f.txn }
          | none, some sv =>
            let ra := match s3.lnk.serves.find? fun x => x.sv = sv with
              | some x => x.rowArea
              | none => 0
            let s4 := s3.updServe sv fun x =>
              { x with
                sentRows := x.sentRows ++ (f.flits.filter fun g => g.off < ra).map (·.off)
                sentBlock := x.sentBlock + (f.flits.filter fun g => ra ≤ g.off).length }
            if f.flits.any (·.last) then s4.withLnk fun n => { n with serves := n.serves.filter fun x => x.sv ≠ sv } else s4
          | none, none => s3

/-- CONTROL_SLOT (R185): a control flit; what its EQ bytes look like the manual does not give (assumption log 74). -/
def State.controlSlot (s : State) (l : Nat) : State :=
  if s.linkState l ≠ 3 ∧ s.linkState l ≠ 2 then s
  else
    let k := s.link l
    let frozen := s.linkState l == 3 && s.rbit .eqCtrl 0 l
    let said := (List.range 4).map fun n => (k.lanes.get n).speak frozen
    let eq := (said.map fun w => toBytes 8 w.1.toNat).flatten
    let pay := toBytes 2 k.rxSeq ++ toBytes 1 (b01 k.nak) ++ toBytes 1 (s.linkState l) ++
      ((List.range 4).map fun v => toBytes 2 (k.freed.get v)).flatten ++ toBytes 8 s.now.toNat ++ toBytes 8 k.peerTime.toNat ++
      toBytes 4 (ticks k.lastCtl s.now) ++ toBytes 2 s.devNum ++ toBytes 1 l ++ toBytes 1 0 ++ eq ++ abortBytes k.aborts.head?
    let hdr := toBytes 16 (2 + k.rxSeq * 2 ^ 24)
    let s1 := (s.send (.flit l (sealFlit hdr pay))).updLink l fun x =>
      { x with
        nak := false, freed := .of 0, aborts := x.aborts.drop 1
        lanes := (said.map (·.2)).zipIdx.foldl (fun t e => t.set e.2 e.1) x.lanes }
    (List.range 4).foldl (fun t n => t.showLane l n) s1

/-! ### Equalisation (R190) -/

/-- A trial stays within its range: CTLE 0-15, taps 0-8, 0-16, 0-16. -/
def EqSet.inRange (a : EqSet) (t : Nat) : Bool :=
  let v := match t / 2 with
    | 0 => a.ctle
    | 1 => a.pre2
    | 2 => a.pre1
    | _ => a.post1
  let top := match t / 2 with
    | 0 => 15
    | 1 => 8
    | _ => 16
  if t % 2 = 0 then v < top else 0 < v

/-- One lane at the end of an interval with `e` corrected bytes: keep or revert, then the next trial in rotation; both reach the lane at the next
control slot.  A frozen loop only measures (R14, R190). -/
def Lane.interval (a : Lane) (e base : Nat) (frozen : Bool) : Lane :=
  let a0 := { a with prevE := e, base := base }
  if frozen then a0
  else
    let a1 := match a.trying with
      | some _ => if 8 * e ≤ 7 * a.prevE then { a0 with trying := none } else a0.revert
      | none => a0
    match ((List.range 8).map fun i => (a1.trial + i) % 8).find? a1.goal.inRange with
    | some t => { a1 with goal := a1.goal.move t false, trying := some t, trial := (t + 1) % 8 }
    | none => a1

/-- EQ_INTERVAL_END (R190), on the lanes in use. -/
def State.eqIntervalEnd (s : State) (l : Nat) : State :=
  let k := s.link l
  if s.linkState l ≠ 3 ∨ k.eqCnt < 2 ^ s.rfld .eqCtrl 4 4 l then s
  else
    let lanes := (List.range (s.rfld .lnkStatus 3 4 l)).map (k.lane0 + ·)
    let f (t : State) (n : Nat) : State :=
      let c := s.rnat .fecCorr l n
      (t.updLink l fun x => { x with lanes := x.lanes.upd n fun a => a.interval (c - a.base) c (s.rbit .eqCtrl 0 l) }).showLane l n
    (lanes.foldl f s).updLink l fun x => { x with eqCnt := 0 }

/-- What a boundary does for the links: one more period of each interval. -/
def State.linkBoundary (s : State) : State :=
  (List.range 16).foldl (fun t l => if t.linkState l = 3 then t.updLink l fun k => { k with eqCnt := k.eqCnt + 1 } else t) s

/-- EXCHANGE_TIMEOUT (R205): a live transfer whose return is silent for TIMEOUT fails with cause 2. -/
def State.exchangeTimedOut (s : State) (xid : Nat) (h : HostData) : State :=
  match s.xfer? xid with
  | none => s
  | some x => if x.st = .live ∧ s.exchTimeout ≤ ticks x.lastRx s.now then s.failXfer xid 2 h else s

end Sys2Proof.Machine
end

