-- ==== Sys2Proof/Machine/Power.lean ====
section
/-! DEFINITION. Chapter 15: clocks, the voltage-and-frequency loop, throttle levels, the power cap, and thermal limits. -/

namespace Sys2Proof.Machine

/-- A frequency-scaled island (Table 15.1). -/
def scaled (k : Nat) : Bool := decide (k < 16) || k == 30 || k == 31 || k == 32

/-- Bottom and top of an island's range in MHz (Table 15.1). -/
def mhzLow (k : Nat) : Nat := if k < 16 ∨ k = 32 then 600 else if k = 30 ∨ k = 31 then 750 else nominalMHz k
/-- The top of the range. -/
def mhzHigh (k : Nat) : Nat := if k < 16 then 1800 else nominalMHz k

/-- The sources that demand a level, as the bits of SOURCES. -/
def Isl.sources (i : Isl) : Nat := (List.range 5).foldl (fun n j => n + b01 (i.dem.get j ≠ 0) * 2 ^ j) 0

/-- PWR.ISL_STATUS shows an island (Table 15.3). -/
def State.showIsl (s : State) (k : Nat) : State :=
  let i := s.isl k
  s.rput .islStatus k 0 ((if s.clockOn k then i.freq else 0) + i.volt * 4096 + i.level * 2 ^ 20 + i.sources * 2 ^ 23)

/-- A frequency rounded down to a step of 25 MHz and not below the bottom of the range. -/
def stepDown (k f : Nat) : Nat := max (f / 25 * 25) (mhzLow k)

/-- The ceiling of the throttle level in force (Table 15.4); none on a fixed island. -/
def State.levelCeil (s : State) (k : Nat) : Option Nat :=
  let l := (s.isl k).level
  if !scaled k || l == 0 then none
  else if l = 1 then some (stepDown k (s.rfld .throttle 0 7 * nominalMHz k / 100))
  else some (mhzLow k)

/-- The ceiling of the cap controller (R335). -/
def State.capCeil (s : State) (k : Nat) : Option Nat :=
  let rho := s.rfld .capStatus 0 7
  if !scaled k || decide (64 ≤ rho) then none else some (stepDown k (rho * nominalMHz k / 64))

/-- A frequency under a ceiling. -/
def under (c : Option Nat) (f : Nat) : Nat := match c with
  | some m => min m f
  | none => f

/-- A ceiling that drops below the present frequency acts at once, whatever STEP_MAX is (R329, R330). -/
def State.lowerNow (s : State) (k : Nat) : State :=
  let f := under (s.levelCeil k) (under (s.capCeil k) (s.isl k).freq)
  if f < (s.isl k).freq then s.updIsl k fun i => { i with freq := f, fTo := none } else s

/-- POWER_THROTTLE (Table 15.9). -/
def State.throttleEvent (s : State) (k : Nat) : State :=
  let i := s.isl k
  s.event 0
    { code := 0x1501, island := 33
      d0 := k + i.level * 256 + i.sources * 2 ^ 11 + s.rfld .islStatus 0 12 k * 2 ^ 16
      d1 := i.unrep, d2 := s.rfld .islTemp 0 8 k }

/-- After a demand changed: the level in force takes effect, and its first change in a period is reported (R330, R331). -/
def State.relevel (s : State) (k old : Nat) : State :=
  let new := (s.isl k).level
  if new = old then s.showIsl k
  else
    let s1 := (s.lowerNow k).showIsl k
    if (s1.isl k).rep = some s1.cp.periodStart then s1.updIsl k fun i => { i with unrep := sat (2 ^ 32 - 1) (i.unrep + 1) }
    else (s1.throttleEvent k).updIsl k fun i => { i with rep := some s1.cp.periodStart, unrep := 0 }

/-- A source's condition asks for level `v` on an island (R331): a rise acts at once, a fall one level per 100 µs. -/
def State.demand (s : State) (k src v : Nat) : State :=
  let i := s.isl k
  let old := i.level
  if i.dem.get src ≤ v then
    if i.dem.get src = v ∧ i.want.get src = v then s
    else (s.updIsl k fun j => { j with want := j.want.set src v, dem := j.dem.set src v }).relevel k old
  else
    s.updIsl k fun j =>
      { j with
        want := j.want.set src v
        fall := if j.dem.get src ≤ j.want.get src then j.fall.set src s.now else j.fall }

/-- THROTTLE_DEMAND_DECAY (R331): 100 µs after a source's demand ended, or last fell, it falls by one level. -/
def State.demandDecay (s : State) (k src : Nat) : State :=
  let i := s.isl k
  if i.want.get src < i.dem.get src ∧ 100000 ≤ ticks (i.fall.get src) s.now then
    (s.updIsl k fun j => { j with dem := j.dem.upd src (· - 1), fall := j.fall.set src s.now }).relevel k i.level
  else s

/-- DUTY_US: 0 acts as 1, values above 9 as 9 (R330). -/
def State.dutyTicks (s : State) : Nat := min (max (s.rfld .throttle 8 4) 1) 9 * 1000

/-- THROTTLE_STOP_WINDOW_END (R330). -/
def State.stopWindowEnd (s : State) (k : Nat) : State :=
  match (s.isl k).win with
  | some t => if s.dutyTicks ≤ ticks t s.now then (s.updIsl k fun i => { i with win := none }).showIsl k else s
  | none => s

/-! ### The voltage-and-frequency loop (R329) -/

/-- A supply within 0.60 V to 0.95 V, in units of 6.25 mV above 0.5 V. -/
def voltClamp (v : Nat) : Nat := min (max v 16) 72

/-- Moves a supply toward its target, one step per 500 ticks; a rise of frequency that waited for it takes effect when it arrives. -/
def State.slew (s : State) (k : Nat) : State :=
  let i := s.isl k
  let n := ticks i.vAt s.now / 500
  if i.volt = i.vTo ∨ n = 0 then s
  else
    let v := if i.volt < i.vTo then min i.vTo (i.volt + n) else max i.vTo (i.volt - n)
    (s.updIsl k fun j =>
      { j with
        volt := v, vAt := j.vAt + w64 (500 * n)
        freq := if v = j.vTo then j.fTo.getD j.freq else j.freq
        fTo := if v = j.vTo then none else j.fTo }).showIsl k

/-- Every supply moves on with time. -/
def State.slewAll (s : State) : State := (s.pwr.isl.ents.map (·.1)).foldl State.slew s

/-- TARGET_MHZ within the island's range, to a step below. -/
def State.target (s : State) (k : Nat) : Nat := stepDown k (min (s.rfld .islCtrl 0 12 k) (mhzHigh k))

/-- The frequency the loop sets at an interval start; `fmax` is the margin's ceiling. -/
def State.nextFreq (s : State) (k fmax : Nat) : Nat :=
  let i := s.isl k
  let lim (f : Nat) : Nat := under (s.levelCeil k) (under (s.capCeil k) f)
  let step := 25 * max (s.rfld .loopCfg 0 4) 1
  let wish := match i.frozen with
    | some p => lim p.1
    | none => lim (min (s.target k) (stepDown k fmax))
  if i.freq ≤ wish then min wish (i.freq + step) else lim (max wish (i.freq - step))

/-- The supply the loop aims at for a frequency: that of the frozen point at its frequency, else the lowest with the margin, `v`.  DEDUCED (assumption
log 76): an island that a limit holds below its frozen point has the supply of any other island there. -/
def Isl.aim (i : Isl) (f v : Nat) : Nat :=
  match i.frozen with
  | some p => if f = p.1 then p.2 else voltClamp v
  | none => voltClamp v

/-- The loop of one island at an interval start: a fall of frequency comes before that of the voltage, a rise after it. -/
def State.loopIsl (s : State) (k fmax v : Nat) : State :=
  let i := s.isl k
  let f := if scaled k then s.nextFreq k fmax else i.freq
  let vt := i.aim f v
  (s.updIsl k fun j =>
    { j with
      vTo := vt, vAt := s.now
      freq := if f < j.freq ∨ vt ≤ j.volt then f else j.freq
      fTo := if j.freq < f ∧ j.volt < vt then some f else none }).showIsl k

/-- Logic heat (R337): the band a temperature reaches, left downward only 3 °C below its lower bound. -/
def heatUp (t : Nat) : Nat := min 4 ((t - 95) / 5)
/-- The demand after a reading, from the demand before. -/
def heatNext (t : Nat) : Nat → Nat
  | 0 => heatUp t
  | w + 1 => if w + 1 ≤ heatUp t then heatUp t else if t + 3 ≤ 95 + 5 * (w + 1) then heatNext t w else w + 1

/-- The cap in force in watts (R334). -/
def State.capW (s : State) : Nat := min (max (s.rfld .cap 0 11) 600) 1500

/-- Percent of hysteresis (0 acts as 1). -/
def State.hyst (s : State) : Nat := max 1 (s.rfld .capCfg 0 4)

/-- Every frequency-scaled island is at the bottom of its range. -/
def State.allBottom (s : State) : Bool := (List.range 33).all fun k => !scaled k || decide ((s.isl k).freq ≤ mhzLow k)

/-- CAP_RATIO_UPDATE (R335), from the power of the interval just ended in mW: ρ may rise only once no escalation is in force (R336). -/
def State.capRatio (s : State) (mw : Nat) : State :=
  let cap := s.capW * 1000
  let rho := s.rfld .capStatus 0 7
  let r := if 11 * cap < 10 * mw then rho - 8
    else if cap < mw then rho - 2
    else if 100 * mw < cap * (100 - s.hyst) then (if s.pwr.escal then rho else min (rho + 1) 64)
    else rho
  s.rsetFld .capStatus 0 7 r

/-- Measures of an interval (R336). -/
def State.capCounts (s : State) (mw : Nat) : State :=
  let cap := s.capW * 1000
  s.withPwr fun p =>
    { p with
      overBot := if cap < mw ∧ s.allBottom then p.overBot + 1 else 0
      under := if 100 * mw < cap * (100 - s.hyst) then p.under + 1 else 0
      above := if cap < mw ∧ p.escal then p.above + 1 else 0
      met := if mw ≤ cap then p.met + 1 else 0 }

/-- PWR.POWER, and energy of 10 µs at `mw`: 10 · mw nJ. -/
def State.addEnergy (s : State) (mw : Nat) : State :=
  let e := s.pwr.nj + 10 * mw
  ((s.rput .power 0 0 (mw % 2 ^ 32)).radd64 .energy 0 0 (e / 1000)).withPwr fun p => { p with nj := e % 1000 }

/-- POWER_CAP (Table 15.9). -/
def State.capEvent (s : State) (outcome : Nat) : State :=
  s.event 0
    { code := 0x1502, island := 33, d0 := s.rfld .cap 0 11 + outcome * 2 ^ 16, d1 := s.rnat .power / 1000
      d2 := s.rfld .capStatus 0 7 }

/-- PWR.BRAKE.LEVEL while the input is low (R339); values above 4 act as 4. -/
def State.brakeLevel (s : State) : Nat := if s.rbit .brake 3 then min 4 (s.rfld .brake 0 3) else 0

/-- The brake's demand on every frequency-scaled island. -/
def State.applyBrake (s : State) : State :=
  (List.range 33).foldl (fun t k => if scaled k then t.demand k 3 t.brakeLevel else t) s

/-- What an interval start does to one island (R329, R330, R337). -/
def State.intervalIsl (s : State) (r : IslRead) : State :=
  let k := r.isl
  if 33 ≤ k then s
  else
    let s1 := (s.rput .islTemp k 0 (min r.deg 255)).demand k 1 (heatNext r.deg ((s.isl k).want.get 1))
    s1.loopIsl k r.fmax r.volt

/-- Stop windows begin on every island at level 3 (R330). -/
def State.openWindows (s : State) : State :=
  (List.range 33).foldl (fun t k =>
    if (t.isl k).level = 3 then (t.updIsl k fun i => { i with win := some t.now }).showIsl k else t) s

/-- CONTROL_INTERVAL (R329, R331, R335, R337): the power and the readings of the interval just ended. -/
def State.controlInterval (s : State) (mw : Nat) (rs : List IslRead) : State :=
  let s1 := (((s.addEnergy mw).capCounts mw).capRatio mw).applyBrake
  let s2 := rs.foldl State.intervalIsl s1
  let s3 := (List.range 33).foldl (fun t k => (t.lowerNow k).showIsl k) s2
  (s3.openWindows).withPwr fun p => { p with last := some s.now }

/-! ### The cap (R334, R336) -/

/-- CAP_WRITE (R334): by the PF, or by the management path. -/
def State.capWrite (s : State) (v : Nat) (mgmt : Bool) : State :=
  let s1 := (s.rput .cap 0 0 (v % 2048)).rput .capStatus 0 0
    (setFld (setFld (s.rnat .capStatus) 8 1 1) 9 1 (b01 mgmt))
  s1.withPwr fun p => { p with capAt := some (s.now + 1000000) }

/-- CAP_EFFECTIVE (R334). -/
def State.capEffective (s : State) : State :=
  match s.pwr.capAt with
  | some t => if reached s.now t then ((s.rsetFld .capStatus 8 1 0).withPwr fun p => { p with capAt := none }).capEvent 1 else s
  | none => s

/-- CAP_ESCALATION (R336): level 3 on every cell after 10 intervals over the cap at the bottom of every range; withdrawn after 10 below
the hysteresis. -/
def State.capEscalation (s : State) : State :=
  let all (t : State) (v : Nat) : State := (List.range 16).foldl (fun u k => u.demand k 0 v) t
  if !s.pwr.escal && decide (10 ≤ s.pwr.overBot) then all (s.withPwr fun p => { p with escal := true }) 3
  else if s.pwr.escal && decide (10 ≤ s.pwr.under) then all (s.withPwr fun p => { p with escal := false }) 0
  else s

/-- CAP_UNMET_CHANGE (R336). -/
def State.capUnmet (s : State) : State :=
  if !s.rbit .capStatus 7 && decide (100 ≤ s.pwr.above) then (s.rsetFld .capStatus 7 1 1).capEvent 2
  else if s.rbit .capStatus 7 && decide (100 ≤ s.pwr.met) then (s.rsetFld .capStatus 7 1 0).capEvent 3
  else s

/-! ### Heat and the brake -/

/-- Stack heat of a cell (R338): a request of R230 on any channel beneath it demands level 2; its end withdraws the demand. -/
def State.stackHeat (s : State) (n : Nat) : State :=
  let on := (List.range 4).any fun c => s.thermReq (4 * n + c)
  match on, (s.isl n).heat with
  | true, none => (s.updIsl n fun i => { i with heat := some s.now }).demand n 2 2
  | false, some _ => (s.updIsl n fun i => { i with heat := none }).demand n 2 0
  | _, _ => s

/-- Stack heat of every cell. -/
def State.stackHeatAll (s : State) : State := (List.range 16).foldl State.stackHeat s

/-- STACK_HEAT_ESCALATE (R338). -/
def State.stackEscalate (s : State) (n : Nat) : State :=
  match (s.isl n).heat with
  | some t =>
    if 2000000 ≤ ticks t s.now then s.demand n 2 4
    else if 1000000 ≤ ticks t s.now then s.demand n 2 3
    else s
  | none => s

/-- BRAKE_EDGE (R339): `low` is the level of PWR_BRAKE_N after the edge. -/
def State.brakeEdge (s : State) (low : Bool) : State :=
  if s.rbit .brake 3 = low then s
  else
    ((s.rsetFld .brake 3 1 (b01 low)).event 0
      { code := 0x1503, island := 33, d0 := b01 low, d1 := s.rfld .brake 0 3 }).applyBrake

/-- THERMAL_TRIP (R340): every island but SAFE stops; the trip is logged; nothing completes afterwards. -/
def State.thermalTrip (s : State) : State :=
  if s.pwr.tripped then s
  else
    let s1 := (s.withPwr fun p => { p with tripped := true }).withCp fun c => { c with halted := true }
    ((List.range 33).foldl State.showIsl s1).logFault { cls := 13, island := 33, action := 7 }

/-- A write of PWR.ISL_CTRL (Table 15.3): FREEZE holds the output, FORCE is a demand of its own. -/
def State.islCtrlWrite (s : State) (k v : Nat) : State :=
  let s1 := s.rput .islCtrl k 0 (v % 2 ^ 16)
  let s2 := s1.updIsl k fun i =>
    { i with
      frozen := if bit v 12 then some (i.frozen.getD (i.freq, i.volt)) else none
      fTo := if bit v 12 then none else i.fTo
      vTo := if bit v 12 then i.volt else i.vTo }
  s2.demand k 4 (min 4 (fld v 13 3))

end Sys2Proof.Machine
end

