-- ==== Sys2Proof/Machine/Faults.lean ====
section
/-! DEFINITION. The rest of chapter 14: stops of an island's clock, lockstep, array fences, fences, partition resets by the host, and
function-level resets. -/

namespace Sys2Proof.Machine

/-! ### Several commands handed by one event (R313, §14.11) -/

/-- A command handed to the fault policy: the context, class, island, array, ordinal. -/
structure Handed where
  x : Ctx
  cls : Nat
  island : Nat
  arr : Nat
  ord : Nat

/-- DETAIL of a handed command (R313). -/
def Handed.detail (g : Handed) : W32 := faultDetail g.cls g.island g.arr g.ord

/-- The recovery that a handed command begins, once for its step (§14.11): a partition reset where that is armed, else a teardown. -/
def State.handOne (s : State) (ids : List CtxId) (g : Handed) : State :=
  let gone : Bool := match s.step? g.x.sid with
    | some st => st.ended.isSome
    | none => true
  if gone then State.drain 65 s g.x.id.q
  else match g.x.part with
    | some p => if s.isolated p && s.rbit .mode 1 p then State.drain 65 (s.partReset p 1 ids) g.x.id.q else s.teardown g.x g.cls g.detail
    | none => s.teardown g.x g.cls g.detail

/-- Commands handed together: each completes with ST_FAULT, and then each step is torn down, or its partition reset, once. -/
def State.handAll (s : State) (l : List Handed) : State :=
  let s1 := l.foldl (fun t g => (t.releaseCtx g.x.id).mark g.x.id stFault g.detail) s
  l.foldl (fun t g => t.handOne (l.map fun h => h.x.id) g) s1

/-! ### Stops of a clock (R112, R308, R332) -/

/-- Arrays of a cell with work in flight. -/
def State.flying (s : State) (n : Nat) : List Nat := ((List.range 4).map fun a => 4 * n + a).filter fun k => (s.arr k).fly.isSome

/-- Retention of a cell was lost (R112, R332): every tile in flight is abandoned with cause 3, and its command is handed with class 3; a
self-test slice claims its array again. -/
def State.retentionLost (s : State) (n : Nat) : State :=
  let go (acc : State × List Handed) (k : Nat) : State × List Handed :=
    match (acc.1.arr k).fly with
    | none => acc
    | some f =>
      let t := acc.1.abandon k
      match f.job with
      | .selftest => (((t.updArr k fun a => { a with claim := true }).abandonedEvent k none 0 1 3 0), acc.2)
      | .tile id ord attempt =>
        match t.ctx? id with
        | none => (t, acc.2)
        | some x =>
          let t1 := (t.updArr k fun a => { a with lastSid := some x.sid }).logFor x 3 n (t.policyAction x) (cellLoc k) ord
          (t1.abandonedEvent k (some x) ord attempt 3 1, acc.2 ++ [⟨x, 3, n, k % 4, ord⟩])
  let r := (s.flying n).foldl go (s, [])
  r.1.handAll r.2

/-- A command has work in progress on an island other than a cell (R308): a slice on one of its engines, a transfer on one of its links, a
far operation on the host link, or a wait in the Command Processor. -/
def State.workOn (s : State) (k : Nat) (x : Ctx) : Bool :=
  (s.en.eng.ents.any fun e => engIsland e.1 == k && e.2.job == some x.id) ||
  (24 ≤ k && k < 28 && x.op == 0x60 && s.lnk.xfers.any fun t => t.sid == x.sid && t.st == .live && (t.link.any fun l => 24 + l / 4 == k)) ||
  (k == 28 && s.emb.far.any fun o => o.outstanding && (s.askers o.atts).contains x.id) ||
  (k == 29 && x.phase == .running && (match x.work with
    | .waits .. => true
    | _ => false))

/-- Every command with work in progress on an island is handed with class 13 (R308, item 3). -/
def State.handIsland (s : State) (k : Nat) : State :=
  let xs := s.cp.ctxs.filter fun x => decide (x.phase ≠ .done) && s.workOn k x
  let s1 := xs.foldl (fun t x => t.logFor x 13 k (t.policyAction x) 0 x.op) s
  s1.handAll (xs.map fun x => ⟨x, 13, k, 0, 0⟩)

/-- A CLOCK_VOLTAGE fault on island `k` (R308): logged; with CLK_STOP = 1 the clock stops, and the island's work goes to the fault policy. -/
def State.clockFault (s : State) (k : Nat) : State :=
  if s.rbit .safePolicy 2 then
    let s1 := ((s.updIsl k fun i => { i with fault := some s.now }).showIsl k).logFault { cls := 13, island := k, action := 7 }
    if k < 16 then s1.retentionLost k else s1.handIsland k
  else s.logFault { cls := 13, island := k, action := 8 }

/-- CLOCK_FAULT_RESTART (R308, item 4): after the monitor has read in range for 1 ms. -/
def State.clockRestart (s : State) (k : Nat) : State :=
  match (s.isl k).fault with
  | some t => if 1000000 ≤ ticks t s.now then (s.updIsl k fun i => { i with fault := none }).showIsl k else s
  | none => s

/-- DROOP_DETECT (R332): the clock of the island stops. -/
def State.droopDetect (s : State) (k : Nat) : State :=
  if (s.isl k).droop.isSome then s else (s.updIsl k fun i => { i with droop := some s.now }).showIsl k

/-- Replays of R112 on one cell: with DROOP_REPLAY = 1 each tile or array slice in flight runs again on its array before any other work.  DESIGN
CHOICE (log 66): on a cell that no partition owns, whose policy no register holds, the replay is armed. -/
def State.droopReplay (s : State) (n : Nat) : State :=
  let armed : Bool := match s.cellPart n with
    | some p => s.rbit .tilePolicy 3 p
    | none => true
  if !armed then s
  else (s.flying n).foldl (fun t k =>
    match (t.arr k).fly with
    | none => t
    | some f =>
      let t1 := t.abandon k
      match f.job with
      | .selftest => t1.updArr k fun a => { a with again := true }
      | .tile id ord attempt =>
        (t1.radd32 .tileReplayed n (k % 4) 1).withEn fun e => { e with due := e.due ++ [⟨id, ord, attempt, k, true, true⟩] }) s

/-- DROOP_RESTART (R112, R332): `lost` when the supply fell below 0.50 V during the stop.  A supply that is not back in range within 10 µs has
lost retention too.  A recovered stop restarts the clock 200 ns after the supply was back. -/
def State.droopRestart (s : State) (k : Nat) (lost : Bool) : State :=
  match (s.isl k).droop with
  | none => s
  | some t =>
    let d := ticks t s.now
    let go (u : State) : State := (u.updIsl k fun i => { i with droop := none }).showIsl k
    if lost || decide (10200 < d) then
      let armed := s.rbit .safePolicy 2
      let s1 := s.logFault { cls := 13, island := k, action := if armed then 7 else 8 }
      let s2 := go (if armed then s1.updIsl k fun i => { i with fault := some s.now } else s1)
      if k < 16 then s2.retentionLost k else if armed then s2.handIsland k else s2
    else if d < 200 then s
    else
      let s1 := go (s.radd32 .droopCount k 0 1)
      if k < 16 then s1.droopReplay k else s1

/-! ### The Safety Island's other detections -/

/-- LOCKSTEP_MISMATCH (R307). -/
def State.lockstep (s : State) : State :=
  if s.rbit .safePolicy 1 then
    (s.withCp fun c => { c with halted := true }).logFault { cls := 12, island := 29, action := 6 }
  else s.logFault { cls := 12, island := 29, action := 8 }

/-- CONFIGURATION_CRC_CHECK (R305, Table 14.2): the self-check or the CRC over the configuration registers does not agree. -/
def State.crcCheck (s : State) (ok : Bool) : State := if ok then s else s.logFault { cls := 17, island := 33, action := 0 }

/-- ARRAY_FENCE_CLEAR (R306): write-1-to-clear; a bit set in the same cycle stays set (R8). -/
def State.fenceClear (s : State) (n v : Nat) : State :=
  s.rput .arrayFenced n 0 ((List.range 4).foldl (fun m a =>
    if bit (s.rnat .arrayFenced n) a && (!bit v a || s.setThis .arrayFenced n a) then m + 2 ^ a else m) 0)

/-! ### Fences (R322, R323) -/

/-- Index of the fences of a function: its tenant, or 64 for the PF. -/
def fenceOwner (fn : Nat) : Nat := if fn = 0 then 64 else fn - 1

/-- FENCE and OWNER of a FENCE_WAIT. -/
def waitFence (x : Ctx) : Reg := ⟨.fence, fld (x.w 2) 8 7, fld (x.w 2) 0 6⟩

/-- A FENCE_WAIT completes if its fence has reached VALUE. -/
def State.fenceCheck (s : State) (x : Ctx) : State :=
  let v := s.rget (waitFence x)
  if (x.a 4).toNat ≤ v.toNat then s.finish x.id stDone (w32 v.toNat) else s

/-- Waits on a fence that its new value satisfies complete, in fetch order. -/
def State.fenceRelease (s : State) (r : Reg) : State :=
  (s.cp.ctxs.filter fun x => x.op = 4 ∧ x.phase = .running ∧ waitFence x = r).foldl State.fenceCheck s

/-- FENCE_SIGNAL (R322). -/
def State.fenceSignal (s : State) (x : Ctx) : State :=
  let r : Reg := ⟨.fence, fenceOwner x.fn, fld (x.w 2) 0 6⟩
  let v := max (s.rget r).toNat (x.a 4).toNat
  ((s.rset r (w64 v)).finish x.id stDone (w32 v)).fenceRelease r

/-- FENCE_WAIT (R323): completes at once when the fence stands at VALUE, else waits. -/
def State.fenceWait (s : State) (x : Ctx) : State :=
  if (x.a 4).toNat ≤ (s.rget (waitFence x)).toNat then s.fenceCheck x else s.beginWait x 0 0

/-- FENCE_WAIT_TIMEOUT (R323): TIMEOUT µs after the wait began; 0 is no limit. -/
def State.fenceTimeout (s : State) (id : CtxId) : State :=
  match s.ctx? id with
  | some x =>
    match x.phase, x.work with
    | .running, .waits since _ _ =>
      if x.op = 4 ∧ x.w 6 ≠ 0 ∧ x.w 6 * 1000 ≤ ticks since s.now then s.finish id stRefused 1 else s
    | _, _ => s
  | none => s

/-! ### Partition resets by the host (R317, R318) -/

/-- PART_RESET_WRITE: every set bit begins a partition reset; a FREE partition takes none. -/
def State.partResetWrite (s : State) (mask : Nat) : State :=
  (List.range 16).foldl (fun t p => if bit mask p && t.pstate p != 0 then (t.noteSet .partReset p 0).partReset p 2 else t) s

/-- PARTITION_RESET_COMPLETE: the partition is ACTIVE, and service of its tables goes on.  A bit of PART_RESET written in the cycle that would
clear it ends set: that write's reset begins (R8, R317). -/
def State.partResetDone (s : State) (p : Nat) : State :=
  if s.pstate p ≠ 4 then s
  else
    let t := (s.rput .pstate p 0 1).rput .partReset 0 0 (setFld (s.rnat .partReset) p 1 0)
    if s.setThis .partReset p 0 then t.partReset p 2 else t.servesPump

/-! ### Function-level resets (R319, R350, R383) -/

/-- Registers of Table 17.10 by tenant that a function-level reset returns to their Reset values. -/
def tenReset (n : RegName) : Bool :=
  match n with
  | .evqCapped | .quantSat | .quantNan | .quantMisfit | .quantWidened | .quantDrift | .quantDriftLost | .embBadidx | .embFarErr
  | .memBarDenied | .rtMisses | .seqPageIns | .seqPageOuts | .seqOrder | .frameAge | .frameFuture | .frameStale | .frameFutureCnt
  | .badrec | .trunc | .locDropped | .locReduced | .locRefused | .sceneTag | .tStall | .fence => true
  | _ => false

/-- Registers by function: event ring, doorbell counts, vectors, selectors. -/
def fnReset (n : RegName) : Bool :=
  match n with
  | .evqBase | .evqCtrl | .evqHead | .evqTail | .evqLost | .dbReject | .vecMod | .yoyoSel => true
  | _ => false

/-- Every command of a function ends without a record (R319): what it holds is released (R315), and its contexts and steps are gone. -/
def State.endFn (s : State) (fn : Nat) : State :=
  let mine := s.cp.ctxs.filter fun x => x.fn = fn
  let sids := (s.cp.steps.ents.filter fun e => match e.2 with
    | some st => st.fn = fn
    | none => false).map (·.1)
  let s1 := mine.foldl (fun t x => (t.releaseCtx x.id).seqEnd x.id) s
  let s2 := sids.foldl (fun t k => t.dropExchange k) s1
  let s3 := s2.withCp fun c => { c with ctxs := c.ctxs.filter fun x => x.fn ≠ fn, steps := c.steps.keep fun k _ => !sids.contains k }
  let s4 := { s3 with qn := { s3.qn with
    caps := s3.qn.caps.keep fun k _ => !(mine.any fun x => x.id = k)
    slots := s3.qn.slots.keep fun k _ => !sids.contains k } }
  mine.foldl (fun t x => t.freed x.id.q) s4

/-- The queues, event ring, vectors and PCI Express state of a function return to their Reset values. -/
def State.resetFn (s : State) (fn : Nat) : State :=
  let s1 := s.withCp fun c =>
    { c with
      queues := c.queues.keep fun q _ => !(s.owner q = fn)
      fns := c.fns.clear fn
      vecs := c.vecs.keep fun k _ => !(k.1 = fn)
      evLost := c.evLost.clear fn }
  { s1 with rf := { s1.rf with
    vals := s1.rf.vals.filter fun e => !(fnReset e.1.n && e.1.i == fn) && !(e.1.n == .feed && s.owner e.1.i == fn)
    staged := s1.rf.staged.filter fun e => e.1.fn ≠ fn
    latched := s1.rf.latched.filter fun e => e.1.fn ≠ fn
    qStaged := s1.rf.qStaged.filter fun e => e.1.fn ≠ fn
    qLatched := s1.rf.qLatched.filter fun e => e.1.fn ≠ fn } }

/-- Everything a tenant holds is released (R319). -/
def State.dropTenant (s : State) (t : Nat) : State :=
  let s1 := s.refuseSections t
  let s2 := ((s1.emb.tabs.ents.map (·.1)).filter fun k => k.1 = t).foldl (fun u k => u.dropTable k.1 k.2) s1
  let s3 := ((s2.seq.fams.ents.map (·.1)).filter fun k => k.1 = t).foldl (fun u k => u.dropFam k.1 k.2) s2
  let s4 := (s3.dropQuisto t).unmapIf (vf t) fun _ => true
  let s5 := s4.toy.models.ents.foldl (fun u e => match e.2 with
    | some m => if e.1.1 = t then u.dropModel e.1 m else u
    | none => u) s4
  let s6 := s5.withToy fun y => { y with sources := y.sources.keep fun k _ => !(k.1 = t) }
  let q : Quant := { s6.qn with recs := s6.qn.recs.keep fun k _ => !(k.1 = t) }
  { s6 with qn := q }

/-- Waits on a tenant's fences complete with ST_FLR (R323), and the fences return to 0. -/
def State.dropFences (s : State) (t : Nat) : State :=
  (s.cp.ctxs.filter fun x => x.op = 4 ∧ x.phase = .running ∧ x.fn ≠ vf t ∧ (waitFence x).i = t).foldl
    (fun u x => u.finish x.id stFlr 0) s

/-- FLR_VF (R319): a function-level reset of the VF of tenant `t`. -/
def State.flrVf (s : State) (t : Nat) : State :=
  let ended := (s.cp.ctxs.filter fun x => x.fn = vf t ∧ x.phase ≠ .done).length
  -- a drain that waits for this VF's partition is refused (Table 14.9)
  let hit : Bool := match s.cp.commit, s.tenPart t with
    | some c, some p => c.drain && c.affected.contains p
    | _, _ => false
  let s1 := if hit then s.epochRefuse 7 else s
  let s2 := ((s1.dropFences t).endFn (vf t)).dropTenant t
  let s3 := s2.resetFn (vf t)
  let s4 := { s3 with rf := { s3.rf with vals := s3.rf.vals.filter fun e => !(tenReset e.1.n && e.1.i == t) } }
  let s5 := (List.range 4).foldl (fun u k => u.rput .tenBalView t k 0) s4
  ((s5.noteRecovery t stFlr ended).servesPump).toyPump

/-- The NVMe area is lost: ENABLE and every drive's ENABLE clear (R358). -/
def State.nvmeOff (s : State) : State :=
  (List.range 8).foldl (fun t d => t.rsetFld .nvmeCfg 0 1 0 d) (s.rsetFld .nvmeCtrl 16 1 0)

/-- Affected partitions return to the states they had before a drain. -/
def State.undrain (s : State) (c : Commit) : State :=
  c.before.foldl (fun t e => if t.pstate e.1 = 4 then t else t.rput .pstate e.1 0 e.2) s

/-- FLR_PF (R350). -/
def State.flrPf (s : State) : State :=
  let s1 := (List.range 64).foldl State.flrVf s
  let s2 := match s1.cp.commit with
    | some c => (s1.undrain c).closeEpoch stRefused 7
    | none => if s1.epochOpen then s1.abandonEpoch else s1
  let s3 := ((s2.endFn 0).resetFn 0).unmapIf 0 fun _ => true
  let s4 := ((s3.nvmeOff).toyPump).servesPump
  let w : Win := { s4.win with vfEnable := false, ptmEnable := false }
  { s4 with win := w }

/-- VF_ENABLE_CLEAR (R383): as a function-level reset of every VF. -/
def State.vfEnableClear (s : State) : State :=
  if !s.win.vfEnable then s
  else
    let s1 := (List.range 64).foldl State.flrVf s
    let w : Win := { s1.win with vfEnable := false }
    { s1 with win := w }

end Sys2Proof.Machine
end

