-- ==== Sys2Proof/Machine/Windup.lean ====
section
/-! DEFINITION. Windup, secure boot and the device resets (§16.1 to §16.3, R302, R320). -/

namespace Sys2Proof.Machine

/-- The state with Windup and host state changed. -/
def State.withWin (s : State) (f : Win → Win) : State := { s with win := f s.win }

/-- SAFE.WINDUP.STAGE. -/
def State.stage (s : State) : Nat := s.rfld .windup 0 3

/-- Windup is in a stage and has not failed; a trip holds it (R340). -/
def State.inStage (s : State) (k : Nat) : Bool :=
  s.stage == k && !s.rbit .windup 3 && !s.win.ready && !s.win.held && !s.pwr.tripped

/-- SAFE.WINDUP_TIME (Table 16.3). -/
def State.noteTime (s : State) : State := s.rput .windupTime 0 0 (sat (2 ^ 32 - 1) (ticks s.win.began s.now / 1000))

/-- WINDUP_FAIL (R343): the stage stays, the cause and its detail are shown, and the failure is logged with ACTION 0. -/
def State.windupFail (s : State) (cause detail cls : Nat) : State :=
  ((s.rput .windup 0 0 (setFld (setFld (setFld (s.rnat .windup) 3 1 1) 4 4 cause) 8 8 detail)).noteTime).logFault
    { cls := cls, island := 33, action := 0 }

/-- Bound of a stage in ticks (Table 16.1), by the highest level of any island (R342); `none` without a bound. -/
def State.bound (s : State) (k : Nat) : Option Nat :=
  let l := (List.range 33).foldl (fun m i => max m (s.isl i).level) 0
  if 3 ≤ l then none
  else some (1000000 * (if k = 1 then 5 else if k = 2 then 10 else if k = 3 then 40 else if k = 4 then 60 else if k = 5 then 25
    else if l = 0 then 40 else 100))

/-- A stage whose work is done: the next stage begins; past its bound it fails with cause 6, but for LINK_TRAIN, which ends at its bound. -/
def State.endStage (s : State) (k : Nat) : State :=
  let late : Bool := match s.bound k with
    | some b => decide (b < ticks s.win.stageAt s.now) && k != 5
    | none => false
  if late then s.windupFail 6 0 17
  else (s.rsetFld .windup 0 3 (k + 1)).withWin fun w => { w with stageAt := s.now }

/-! ### Device resets (R348, R349) -/

/-- Registers that a device reset other than power-on keeps (R349, R372). -/
def keepsReset (n : RegName) : Bool :=
  match n with
  | .logHead | .classCount | .lateCount | .cap | .energy | .bootPrefer | .mgmtDevnum | .bootStatus | .bootDigest | .windupTime => true
  | _ => false

/-- Registers that do not stand at a Reset value at READY: those kept over resets, those Windup writes, and the live readings (R344, R370). -/
def keepsReady (n : RegName) : Bool :=
  keepsReset n || (match n with
    | .windup | .lnkDevice | .lnkStatus | .eqState | .chanState | .temp | .tempMax | .ptmStatus | .brake | .entStatus | .islStatus | .islTemp
    | .capStatus => true
    | _ => false)

/-- The register file after a device reset: Reset values but for what R349 keeps; ALIGNED and the brake input show what they are. -/
def State.resetRegs (s : State) : RegFile :=
  let kept : RegFile := { RegFile.reset with vals := s.rf.vals.filter fun e => keepsReset e.1.n }
  ((kept.set ⟨.ptmStatus, 0, 0⟩ (w64 (s.rfld .ptmStatus 0 1))).set ⟨.brake, 0, 0⟩ (w64 (3 + s.rfld .brake 3 1 * 8))).set
    ⟨.windup, 0, 0⟩ (w64 (1 + s.rfld .windup 16 1 * 65536))

/-- A device reset that runs Windup (R349).  `cfg` keeps the PCI Express configuration state.  Stacked memory keeps its contents, which no
agent reaches before STACK_TRAIN zeroes them; a key update in progress is cut as power loss would cut it (§16.9). -/
def State.deviceReset (s0 : State) (cfg : Bool) : State :=
  let s := s0.keyPowerLoss
  let q : Qst := { Qst.reset with
    store := s.qst.store, fuse := s.qst.fuse, marginal := s.qst.marginal, recovery := s.qst.recovery, nonce := s.qst.nonce }
  let m : Mem := { Mem.reset with bytes := s.mem.bytes, poison := s.mem.poison, plist := s.mem.plist }
  let c : Cp := { Cp.reset with fns := if cfg then s.cp.fns else .of FnSt.reset }
  let p : Pwr := { Pwr.reset with tripped := s.pwr.tripped, nj := s.pwr.nj }
  let w : Win := { s.win with
    ready := false, keyNote := false, began := s.now, stageAt := s.now, failed := []
    vfEnable := cfg && s.win.vfEnable, ptmEnable := cfg && s.win.ptmEnable, rrs := !cfg }
  { State.reset with
    pending := s.pending, now := s.now, freeN := s.freeN, io := s.io, rf := s.resetRegs, cp := c, mem := m, qst := q, safe := s.safe
    pwr := p, win := w }

/-- Quiesce (R320): every fetched command that has not completed ends with ST_DEVICE_RESET, and its record is written where its function
may write. -/
def State.quiesce (s : State) : State :=
  let live := s.cp.ctxs.filter fun x => x.phase ≠ .done
  let s1 := live.foldl (fun t x => (t.releaseCtx x.id).mark x.id stDeviceReset 0) s
  (s1.cp.queues.ents.map (·.1)).foldl (fun t q => if t.hostUp (t.owner q) then State.drain 65 t q else t) s1

/-- Every sensor reads below 100 °C (R340). -/
def State.cool (s : State) : Bool :=
  ((List.range 33).all fun k => s.rfld .islTemp 0 8 k < 100) && (List.range 64).all fun c => s.rfld .temp 0 8 c < 100

/-- A reset that may end a thermal trip ends it once every sensor is cool. -/
def State.endTrip (s : State) : State := if s.cool then s.withPwr fun p => { p with tripped := false } else s

/-- SOFTWARE_RESET (Table 16.7): RESET, with QUIESCE the records of R320 first. -/
def State.softwareReset (s : State) (v : Nat) : State :=
  if !bit v 0 then s else (if bit v 1 then s.quiesce else s).deviceReset true

/-- CONVENTIONAL_RESET. -/
def State.conventionalReset (s : State) : State := (s.endTrip).deviceReset false

/-- MANAGEMENT_RESET (Table 16.13, effecter 22): state 2 with quiesce; other states have no effect. -/
def State.managementReset (s : State) (v : Nat) : State :=
  if !s.win.mgmtUp then s
  else if v = 1 then (s.endTrip).deviceReset true
  else if v = 2 then ((if s.win.ready && !s.cp.halted then s.quiesce else s).endTrip).deviceReset true
  else s

/-- POWER_ON_RESET: nothing is kept but what does not need power: the key store and fuses, the boot flash and BOOT_PREFER. -/
def State.powerOn (s0 : State) : State :=
  let s := s0.keyPowerLoss
  let q : Qst := { Qst.reset with store := s.qst.store, fuse := s.qst.fuse, marginal := s.qst.marginal }
  let w : Win := { Win.reset with
    ready := false, mgmtUp := false, flash := s.win.flash, svnMin := s.win.svnMin, rrs := true }
  let f := (RegFile.reset.set ⟨.bootPrefer, 0, 0⟩ (s.rget ⟨.bootPrefer, 0, 0⟩)).set ⟨.windup, 0, 0⟩ 1
  { State.reset with pending := s.pending, freeN := s.freeN, io := s.io, rf := f, qst := q, win := w }

/-- The TAP takes EXTEST, CLAMP or HIGHZ: a device reset, held until it leaves them (R365). -/
def State.testReset (s : State) (i : Tap) : State :=
  if i = .extest ∨ i = .clamp ∨ i = .highz then
    if s.win.held then s.withWin fun w => { w with tap := i }
    else (s.deviceReset false).withWin fun w => { w with tap := i, held := true }
  else s

/-- IDCODE (R365). -/
def idcode : W32 := w32 (1 * 2 ^ 28 + 0x1600 * 2 ^ 12 + 0x5BD * 2 + 1)

/-- TAP_INSTRUCTION: BYPASS, IDCODE, SAMPLE or PRELOAD; leaving a test reset begins Windup. -/
def State.tapInstr (s : State) (i : Tap) : State :=
  if i = .extest ∨ i = .clamp ∨ i = .highz then s
  else
    let s1 := s.withWin fun w => { w with tap := i, held := false, began := if w.held then s.now else w.began
                                          stageAt := if w.held then s.now else w.stageAt }
    if i = .idcode then s1.send (.tdo idcode) else s1

/-! ### Secure boot (R345, R346) -/

/-- The bytes of an image slot. -/
def State.image (s : State) (k : Nat) : List W8 := (s.win.flash.get k).getD (Config.factoryImage k)

/-- SHA-256 as its 32 bytes in order. -/
def shaBytes (l : List W8) : List W8 := toBytes 32 (Config.sha256 l).toNat

/-- A big-endian number. -/
def beNat (l : List W8) : Nat := l.foldl (fun n b => n * 256 + b.toNat) 0

/-- An ECDSA P-256 signature (r, s) of a message under a public key (FIPS 186-5). -/
def ecdsaOk (x y r sg : Nat) (msg : List W8) : Bool :=
  let n := curveOrder 0
  if !p256On x y || r == 0 || sg == 0 || decide (n ≤ r) || decide (n ≤ sg) then false
  else
    let w := powMod n 256 sg (n - 2)
    let e := beNat (shaBytes msg)
    let pt := p256Add (p256Mul 256 (e * w % n) p256G) (p256Mul 256 (r * w % n) (x, y))
    pt != p256Id && pt.1 % n == r

/-- Result code of an image (Table 16.4). -/
def imageResult (b : List W8) (svnMin : Nat) : Nat :=
  let len := natAt b 8 4
  let zero (o n : Nat) : Bool := (sliceB b o n).all (· == 0)
  if sliceB b 0 4 ≠ [0x54, 0x51, 0x4D, 0x43] ∨ !(zero 6 2 && zero 12 20 && zero 192 64) ∨ 8388352 < len then 2
  else if shaBytes (sliceB b 256 len) ≠ sliceB b 32 32 then 3
  else if Config.sha256 (sliceB b 64 64) ≠ Config.rootKeyHash then 4
  else if !ecdsaOk (beNat (sliceB b 64 32)) (beNat (sliceB b 96 32)) (beNat (sliceB b 128 32)) (beNat (sliceB b 160 32)) (sliceB b 0 128) then 5
  else if natAt b 4 2 < svnMin then 6
  else 1

/-- The boot registers after a slot was booted (Table 16.5). -/
def State.booted (s : State) (k ra rb : Nat) : State :=
  let b := s.image k
  let d := beNat (shaBytes (sliceB b 256 (natAt b 8 4)))
  let s1 := (s.rput .bootStatus 0 0 (ra + rb * 16 + natAt b 4 2 * 256 + s.win.svnMin * 2 ^ 24)).rsetFld .windup 16 1 k
  (List.range 4).foldl (fun t i => t.rput .bootDigest 0 i (d / 2 ^ (64 * i) % 2 ^ 64)) s1

/-- SECURE_BOOT (R346): the slot BOOT_PREFER names, then the other. -/
def State.secureBoot (s : State) : State :=
  if !s.inStage 3 then s
  else
    let p := s.rfld .bootPrefer 0 1
    let r1 := imageResult (s.image p) s.win.svnMin
    let r2 := if r1 = 1 then 0 else imageResult (s.image (1 - p)) s.win.svnMin
    let ra := if p = 0 then r1 else r2
    let rb := if p = 0 then r2 else r1
    if r1 = 1 then (s.booted p ra rb).endStage 3
    else if r2 = 1 then (s.booted (1 - p) ra rb).endStage 3
    else (s.rput .bootStatus 0 0 (ra + rb * 16 + s.win.svnMin * 2 ^ 24)).windupFail 3 (rb * 16 + ra) 17

/-! ### The other stages (Table 16.1) -/

/-- FUSE_READ: the key store is recovered (R302); cause 1 when its active slot is not valid or the root key hash senses marginal. -/
def State.fuseStage (s : State) (rootOk : Bool) : State :=
  if !s.inStage 1 then s
  else
    let s1 := s.withQst Qst.fuseRead
    if s1.qst.keyOk && rootOk then s1.endStage 1 else s1.windupFail 1 0 17

/-- SAFE_START: the Safety Island's self-check; the management endpoint responds from its end. -/
def State.safeStart (s : State) (ok : Bool) : State :=
  if !s.inStage 2 then s
  else if ok then (s.endStage 2).withWin fun w => { w with mgmtUp := true }
  else s.windupFail 2 0 17

/-- STACK_TRAIN: the channels train, every page becomes zero and FREE, the poison lists empty; cause 4 names a channel that fails. -/
def State.stackTrain (s : State) (bad : Option Nat) : State :=
  if !s.inStage 4 then s
  else match bad with
    | some c => s.windupFail 4 c 5
    | none => (s.withMem fun _ => Mem.reset).endStage 4

/-- LINK_TRAIN: SAFE.MGMT_DEVNUM is copied, and every enabled link trains; `good` gives the good lanes of the links that finish within the
stage, and the others go on training. -/
def State.linkTrain (s : State) (good : List (Nat × Nat)) : State :=
  if !s.inStage 5 then s
  else
    let s1 := s.rput .lnkDevice 0 0 (s.rfld .mgmtDevnum 0 16)
    let s2 := (List.range 16).foldl (fun t l => if t.rbit .lnkCtrl 0 l then t.startTraining l false else t) s1
    (good.foldl (fun t g => if g.1 < 16 then t.linkTrainingComplete g.1 g.2 else t) s2).endStage 5

/-- SELF_TEST: `bad` are the arrays that fail, `u0` and `u1` whether each Quisto unit passes its start-up tests; BOOT_NONCE is drawn. -/
def State.selfTest (s : State) (bad : List Nat) (u0 u1 : Bool) : State :=
  if !s.inStage 6 then s
  else if !u0 && !u1 then s.windupFail 5 0 11
  else
    let (v0, s1) := s.free
    let (v1, s2) := s1.free
    let one (t : State) (u : Nat) (ok : Bool) : State := if ok then t.seedDrbg u else t.entropyFail u 3
    let s3 := one (one s2 0 u0) 1 u1
    ((s3.withQst fun q => { q with nonce := BitVec.ofNat 128 (v0.toNat + v1.toNat * 2 ^ 64) }).endStage 6).withWin fun w =>
      { w with failed := bad.filter (· < 64) }

/-- READY (R344): the Reset values of every register hold, but for what `keepsReady` names; arrays that failed are fenced and logged, and the device takes commands from the host.  Nothing lost or pending from before
READY is left in the PF's event and interrupt state. -/
def State.goReady (s : State) : State :=
  if !s.inStage 7 then s
  else
    let s1 := ({ s with rf := { RegFile.reset with vals := s.rf.vals.filter fun e => keepsReady e.1.n } }.noteTime).withCp fun c =>
      { c with evLost := .of 0, vecs := .of Vec.reset, periodStart := s.now, exhSeen := [] }
    let s2 := s.win.failed.foldl (fun t k =>
      (t.fenceArray k).logFault
        { cls := 16, island := k / 4, action := 5, loc := cellLoc k }) s1
    (s2.withEn fun e => { e with roundAt := s.now, roundDone := [], roundLogged := false }).withWin fun w =>
      { w with ready := true, keyNote := decide (s.qst.recovery ≠ 0) }

end Sys2Proof.Machine
end

