-- ==== Sys2Proof/Machine/Host.lean ====
section
/-! DEFINITION. The host link, the time base, NVMe attachment, management and boundary scan (§16.4 to §16.8). -/

namespace Sys2Proof.Machine

/-- An event of Table 16.14: on the PF ring from ISLAND 28, with PF vector 34 (R353). -/
def State.hostEvent (s : State) (code d0 d1 d2 : Nat) : State :=
  (s.event 0 { code := code, island := 28, d0 := d0, d1 := d1, d2 := d2 }).cause 0 34

/-- HOST_LINK_CHANGE (Tables 16.8, 16.14): a new rate, width or mode. -/
def State.hostLinkChange (s : State) (rate width : Nat) (flit : Bool) : State :=
  let d := rate % 16 + width % 32 * 16 + b01 flit * 512
  if d = s.win.hostLink then s
  else (s.hostEvent 0x1601 d s.win.hostLink 0).withWin fun w => { w with hostLink := d }

/-- PCIE_ERROR_RX (R354): a poisoned write is discarded, or a request outside every BAR receives Unsupported Request; both are logged with
class 9, and AER's record sends vector 34 (R353). -/
def State.pcieError (s : State) (fn : Nat) (ur : Bool) : State :=
  let s1 := if ur then s.send (.unsupported fn) else s
  ((s1.logFault { cls := 9, island := 28, action := 0 }).withWin fun w => { w with aerUnc := w.aerUnc + 1 }).cause 0 34

/-! ### Precision Time Measurement (R356, R357) -/

/-- Every queue of every function is DISABLED. -/
def State.allDisabled (s : State) : Bool := s.cp.queues.ents.all fun e => e.2.mode == .disabled

/-- o / d rounded to nearest, halves away from zero. -/
def roundDiv (o : Int) (d : Nat) : Int :=
  if 0 ≤ o then ((2 * o.toNat + d) / (2 * d) : Nat) else -(((2 * (-o).toNat + d) / (2 * d) : Nat) : Int)

/-- INTERVAL_MS (0 acts as 1). -/
def State.ptmMs (s : State) : Nat := max 1 (s.rfld .ptmCtrl 8 8)

/-- HOST_TIME (Table 16.14). -/
def State.hostTime (s : State) (why : Nat) (o : W64) : State := s.hostEvent 0x1602 why (o.toNat % 2 ^ 32) (o.toNat / 2 ^ 32)

/-- A dialog is due: enabled on both sides, and INTERVAL_MS after the last. -/
def State.ptmDue (s : State) : Bool :=
  s.rbit .ptmCtrl 0 && s.win.ptmEnable && (match s.win.ptmLast with
    | some t => decide (s.ptmMs * 1000000 ≤ ticks t s.now)
    | none => true)

/-- A successful dialog's offset takes effect: one forward step at most, at the first dialog; otherwise a slew. -/
def State.ptmApply (s : State) (m o : W64) : State :=
  if !s.rbit .ptmStatus 0 && s.allDisabled && decide (s.now.toNat ≤ m.toNat) then
    { s.rsetFld .ptmStatus 0 1 1 with now := m }
  else
    let r : Int := max (-100) (min 100 (roundDiv o.toInt s.ptmMs))
    (s.rsetFld .ptmStatus 0 1 1).rsetFld .ptmStatus 8 8 (BitVec.ofInt 8 r).toNat

/-- PTM_DIALOG (R356, R357): `master` is the corrected master time, or none when the dialog fails. -/
def State.ptmDialog (s : State) (master : Option W64) : State :=
  if !s.ptmDue then s
  else match master with
    | none =>
      let s1 := s.withWin fun w => { w with ptmFails := w.ptmFails + 1, ptmLast := some s.now }
      if s1.win.ptmFails = 10 then s1.hostTime 2 (s.rget ⟨.ptmOffset, 0, 0⟩) else s1
    | some m =>
      let o := m - s.now
      let s1 := (s.rset ⟨.ptmOffset, 0, 0⟩ o).ptmApply m o
      let s2 := s1.withWin fun w => { w with ptmFails := 0, ptmLast := some s1.now }
      if 1000000 < o.toInt.natAbs then s2.hostTime 1 o else s2

/-! ### NVMe drives (R358 to R361) -/

/-- NVME_STATE (Table 16.14). -/
def State.nvmeEvent (s : State) (reason drive : Nat) : State := s.hostEvent 0x1603 reason drive 0

/-- The 36 entries of the area from an index are VALID, and unsealed where that is asked. -/
def State.areaOk (s : State) (idx : Nat) (open_ : Bool) : Bool :=
  decide (idx + 36 ≤ 32768) && (List.range 36).all fun i =>
    let e := s.mem.maps.get (0, idx + i)
    e.valid && !(open_ && e.sealed)

/-- NVME_AREA_ENABLE (R358): a write of HOST.NVME_CTRL. -/
def State.areaEnable (s : State) (v : Nat) : State :=
  let idx := fld v 0 15
  let s1 := s.rput .nvmeCtrl 0 0 (setFld (s.rnat .nvmeCtrl) 0 15 idx)
  if !bit v 16 then s1.rsetFld .nvmeCtrl 16 1 0
  else if s.areaOk idx true then s1.rsetFld .nvmeCtrl 16 1 1
  else (s1.rsetFld .nvmeCtrl 16 1 0).nvmeEvent 1 0xFF

/-- The area is lost when its entries lose VALID (R358). -/
def State.areaGuard (s : State) : State :=
  if s.rbit .nvmeCtrl 16 && !s.areaOk (s.rfld .nvmeCtrl 0 15) false then (s.nvmeOff).nvmeEvent 3 0xFF else s

/-- The queue regions of a drive become zero (R359). -/
def State.zeroDrive (s : State) (d pairs depth : Nat) : State :=
  (List.range pairs).foldl (fun t y =>
    let n := d * 64 + y
    let z (u : State) (o len : Nat) : State := (u.devZero 0 (u.areaAddr o) len).1
    z (z t (65536 * n) (depth * 64)) (33554432 + 16384 * n) (depth * 16)) s

/-- NVME_DRIVE_ENABLE (R359): a write of HOST.NVME_DRV_CFG[d].  While ENABLE stays 1 only ENABLE and ONLINE take the write. -/
def State.driveCfg (s : State) (d v : Nat) : State :=
  let old := s.rnat .nvmeCfg d
  let online := setFld old 1 1 (fld v 1 1)
  if bit old 0 then s.rput .nvmeCfg d 0 (setFld online 0 1 (fld v 0 1))
  else
    let new := setFld (v &&& 0xFFFF007FFFFE) 0 1 0
    let s1 := s.rput .nvmeCfg d 0 new
    if !bit v 0 then s1
    else
      let pairs := fld v 2 7
      let depth := fld v 9 10 + 1
      if s.rbit .nvmeCtrl 16 && decide (1 ≤ pairs) && decide (pairs ≤ 64) && decide (2 ≤ depth) && decide (s.rnat .nvmeBar d ≠ 0) then
        ((s1.rput .nvmeCfg d 0 (new + 1)).zeroDrive d pairs depth).withEmb fun e =>
          { e with nvq := e.nvq.keep fun k _ => !(k.1 = d), nvTurn := e.nvTurn.clear d }
      else s1.nvmeEvent 2 d

/-- NVME_DRIVE_ONLINE (R359). -/
def State.driveOnline (s : State) (d : Nat) (on : Bool) : State := s.rsetFld .nvmeCfg 1 1 (b01 on) d

/-- A run of BAR4 bytes falls in the NVMe area. -/
def State.inArea (s : State) (off len : Nat) : Bool :=
  s.rbit .nvmeCtrl 16 && overlap off len (s.areaAddr 0) (36 * pageSize)

/-- A run of BAR4 bytes lies wholly in the area. -/
def State.withinArea (s : State) (off len : Nat) : Bool :=
  s.rbit .nvmeCtrl 16 && decide (s.areaAddr 0 ≤ off) && decide (off + len ≤ s.areaAddr 0 + 36 * pageSize)

/-- A request at PF BAR4 that R361 refuses: counted, a read answered with zeros. -/
def State.areaDeny (s : State) (len : Nat) (write : Option (List W8)) : State :=
  let s1 := s.radd32 .nvmeDenied 0 0 1
  match write with
  | none => s1.send (.readData 0 (List.replicate len 0) false)
  | some _ => s1

/-- A Requester ID of an enabled drive. -/
def State.driveRid (s : State) (rid : Nat) : Bool :=
  (List.range 8).any fun d => s.rbit .nvmeCfg 0 d && s.rfld .nvmeCfg 32 16 d == rid

/-- NVME_AREA_ACCESS (R361): a request at PF BAR4 with a Requester ID. -/
def State.areaAccess (s : State) (rid off len : Nat) (write : Option (List W8)) : State :=
  if s.driveRid rid then (if s.withinArea off len then s.bar4 0 off len write else s.areaDeny len write)
  else if s.inArea off len then s.areaDeny len write
  else s.bar4 0 off len write

/-- BAR4_ACCESS (R211, R361): a host access at a function's BAR4; `es` are errors that lines of the device have taken on. -/
def State.bar4Access (s0 : State) (fn off len : Nat) (write : Option (List W8)) (es : List Hit) : State :=
  let s := s0.strike es
  if fn = 0 ∧ s.inArea off len then s.areaDeny len write else s.bar4 fn off len write

/-! ### Completion timeouts (R354, R382) -/

/-- The completion timeout of a function in ticks; `none` while it is disabled.  A range's lower end is the earliest the timeout may be. -/
def State.cto (s : State) (fn : Nat) : Option Nat :=
  let f := s.cp.fns.get fn
  if f.ctoDisable then none
  else some (1000000 * (if f.cto = 5 then 16 else if f.cto = 6 then 65 else if f.cto = 9 then 260 else if f.cto = 10 then 1000
    else if f.cto = 13 then 4000 else if f.cto = 14 then 17000 else 50))

/-- The timeout of a function has run since an instant. -/
def State.ctoPast (s : State) (fn : Nat) (since : W64) : Bool :=
  match s.cto fn with
  | some n => decide (n ≤ ticks since s.now)
  | none => false

/-- COMPLETION_TIMEOUT of a ring read (R42). -/
def State.ringTimeout (s : State) (q : Nat) : State :=
  match (s.queue q).reads with
  | r :: _ => if s.ctoPast (s.owner q) r.at_ then s.logPcie.faultQueue q 1 (addrAdd (s.queue q).ringBase (64 * (r.first.toNat % (s.queue q).entries))) else s
  | [] => s

/-- COMPLETION_TIMEOUT of a tier T2 block read (R172). -/
def State.farCto (s : State) (k : Nat) (h : HostData) : State :=
  match s.emb.far.find? fun o => o.k = k ∧ o.kind = .read ∧ o.outstanding ∧ o.qp = none with
  | some o => if s.ctoPast (vf o.ten) o.issued then s.farReadComplete k none h else s
  | none => s

/-- COMPLETION_TIMEOUT of a page-in's read (R253). -/
def State.pageCto (s : State) (k : Nat) : State :=
  match s.seq.ops.find? fun o => o.k = k ∧ o.outstanding ∧ !o.out with
  | some o => if s.ctoPast (vf o.ten) o.issued then s.pageInDone k none else s
  | none => s

/-- COMPLETION_TIMEOUT. -/
def State.completionTimeout (s : State) (t : CtoRead) (h : HostData) : State :=
  match t with
  | .ring q => s.ringTimeout q
  | .far k => ((s.farCto k h).seqPump).exchangesPump h
  | .page k => s.pageCto k

/-! ### Management (R362 to R364) and the rest -/

/-- Something happens at the management endpoint only while it responds. -/
def State.mgmt (s : State) (f : State → State) : State := if s.win.mgmtUp then f s else s

/-- MCTP_SET_ENDPOINT_ID: an ID of 0 or 0xFF is not valid. -/
def State.setEid (s : State) (v : Nat) : State :=
  if v % 256 = 0 ∨ v % 256 = 255 then s else s.withWin fun w => { w with eid := v % 256 }

/-- Value of a PLDM sensor (Table 16.13). -/
def State.sensor (s : State) (id : Nat) : Option Nat :=
  if id = 1 then some (s.rnat .power / 1000)
  else if id = 2 then some (s.rnat .energy / 1000000)
  else if id = 3 then some ((List.range 33).foldl (fun m k => max m (s.rfld .islTemp 0 8 k)) 0)
  else if id = 4 then some ((List.range 64).foldl (fun m c => max m (s.rfld .temp 0 8 c)) 0)
  else if id = 5 then some s.capW
  else if id = 10 then some (if s.rbit .windup 3 then 8 else s.stage)
  else none

/-- PLDM_SENSOR_READ: the value as 8 bytes; another ID has no sensor. -/
def State.sensorRead (s : State) (id : Nat) : State :=
  match s.sensor id with
  | some v => s.send (.mgmt (toBytes 8 v))
  | none => s

/-- MGMT_DEVNUM_WRITE (R364, R372): effecter 21. -/
def State.devnumWrite (s : State) (v : Nat) : State :=
  let s1 := s.rput .mgmtDevnum 0 0 (v % 65536)
  if s.win.ready then s1.linkDeviceWrite (v % 65536) else s1

/-- An entry of the fault log; one never written is zero. -/
def State.logEntry (s : State) (i : Nat) : List W8 :=
  let b := s.safe.log.get (i % 256)
  if b = [] then List.replicate 32 0 else b

/-- FAULT_LOG_READ (R364). -/
def State.logRead (s : State) (i : Nat) : State := s.send (.mgmt (toBytes 4 (s.rnat .logHead) ++ s.logEntry i))

/-- The slot that was not booted. -/
def State.otherSlot (s : State) : Nat := 1 - s.rfld .windup 16 1

/-- FIRMWARE_UPDATE_TRANSFER (R347, R363): consecutive pieces of an image of `len` bytes, 8 MiB at most, into the slot not booted. -/
def State.fwTransfer (s : State) (len off : Nat) (bs : List W8) : State :=
  let got := if off = 0 then 0 else s.win.fwGot
  if 8388608 < len ∨ off ≠ got ∨ len < off + bs.length then s
  else
    let k := s.otherSlot
    s.withWin fun w =>
      { w with
        flash := w.flash.set k (some ((s.image k).take off ++ bs))
        fwLen := len, fwGot := off + bs.length, fwOk := false }

/-- APPLY_COMPLETE (R363): the image is verified under R346 before success is reported; the answer is its result code. -/
def State.applyComplete (s : State) : State :=
  if s.win.fwLen = 0 ∨ s.win.fwGot ≠ s.win.fwLen then s
  else
    let r := imageResult (s.image s.otherSlot) s.win.svnMin
    (s.withWin fun w => { w with fwOk := decide (r = 1) }).send (.mgmt (toBytes 1 r))

/-- ACTIVATE_FIRMWARE (R347, R363). -/
def State.activate (s : State) : State :=
  if s.win.fwOk then (s.rput .bootPrefer 0 0 s.otherSlot).withWin fun w => { w with fwOk := false, fwLen := 0, fwGot := 0 } else s

/-- SVN_COMMIT (R347). -/
def State.svnCommit (s : State) (v : Nat) : State :=
  if s.win.svnMin < v ∧ v ≤ 64 ∧ v = s.rfld .bootStatus 8 16 then
    (s.withWin fun w => { w with svnMin := v }).rsetFld .bootStatus 24 8 v
  else s

/-- EVQ_ENABLE of the PF after a key-store recovery: KEY_STORE follows (R302, R344). -/
def State.evqEnableRow (s : State) (fn : Nat) : State :=
  let s1 := s.evqEnable fn
  if fn = 0 && s1.rbit .evqCtrl 0 && s1.win.keyNote then (s1.keyStoreEvent).withWin fun w => { w with keyNote := false } else s1

end Sys2Proof.Machine
end

