-- ==== Sys2Proof/Machine/Regs.lean ====
section
/-! DEFINITION. The register map and register accesses: what lies at each word of PF and VF BAR0, what a read returns, and what a write does,
halves of 64-bit registers included (R7, R8, R10, R40, R366 to R372). -/

namespace Sys2Proof.Machine

/-! ### The map (R366) -/

/-- What begins at a word of BAR0. -/
inductive Loc where
  /-- no register (R367) -/
  | empty
  | reg (r : Reg) (wide : Bool)
  /-- offset `o` of the block of queue `q` (Table 02.11) -/
  | queue (q o : Nat)
  /-- CP.YOYO_DATA0 and 1 (Table 05.6) -/
  | yoyo (k : Nat)
  /-- CELL.FEED_DATA0 to 3 (R236) -/
  | feedData (n k : Nat)
  /-- SAFE.LOG_DATA0 to 3 (R310) -/
  | logData (k : Nat)
  | keyStatus
  /-- views in the TEN block (§17.5) -/
  | rngSeed (t : Nat)
  | intSplit (t : Nat)
  | tenHeld (t : Nat)
  /-- write-only registers -/
  | deviceReset
  | schedCmd (p : Nat)
  | svn
  /-- word `k` of entry `v` of a function's MSI-X table, and word `k` of its pending-bit array -/
  | msix (fn v k : Nat)
  | pba (fn k : Nat)
deriving DecidableEq, Repr

/-- Where a row's element number goes in `Reg`: the element, or the element counted from 1, as second or as first index. -/
inductive ElemAt where
  | j | j1 | i | i1
deriving DecidableEq, Repr

/-- A row of Tables 17.2 to 17.14: offset, name, number of elements, step, width, and place of the element number. -/
structure MapRow where
  off : Nat
  what : RegName
  n : Nat := 1
  step : Nat := 4
  wide : Bool := false
  el : ElemAt := .j
deriving DecidableEq, Repr

/-- The register of a row at an element. -/
def MapRow.reg (m : MapRow) (inst e : Nat) : Reg :=
  match m.el with
  | .j => ⟨m.what, inst, e⟩
  | .j1 => ⟨m.what, inst, e + 1⟩
  | .i => ⟨m.what, e, 0⟩
  | .i1 => ⟨m.what, e + 1, 0⟩

/-- The register that begins at an offset of a block, from its table. -/
def regRow (rows : List MapRow) (inst o : Nat) : Loc :=
  match rows.find? fun m => decide (m.off ≤ o) && decide (o < m.off + m.n * m.step) && (o - m.off) % m.step == 0 with
  | some m => .reg (m.reg inst ((o - m.off) / m.step)) m.wide
  | none => .empty

/-- Table 17.2. -/
def glbRows : List MapRow :=
  [⟨0x000, .epoch, 1, 4, false, .j⟩, ⟨0x004, .epochCtrl, 1, 4, false, .j⟩, ⟨0x008, .epochHold, 1, 4, false, .j⟩,
   ⟨0x00C, .epochResult, 1, 4, false, .j⟩, ⟨0x010, .epochDiscards, 1, 4, false, .j⟩, ⟨0x020, .partReset, 1, 4, false, .j⟩,
   ⟨0x040, .bgSelftest, 1, 4, false, .j⟩, ⟨0x044, .bgMigStack, 1, 4, false, .j⟩, ⟨0x048, .bgMigLink, 1, 4, false, .j⟩,
   ⟨0x04C, .bgZeroStack, 1, 4, false, .j⟩, ⟨0x050, .bgCtrl, 1, 4, false, .j⟩, ⟨0x060, .bgBal, 4, 8, true, .i⟩,
   ⟨0x080, .bgUsed, 4, 8, true, .i⟩, ⟨0x0A0, .bgExh, 4, 4, false, .i⟩, ⟨0x100, .quantCtrl, 1, 4, false, .j⟩,
   ⟨0x110, .embPlace, 1, 4, false, .j⟩, ⟨0x114, .embRepl, 1, 4, false, .j⟩, ⟨0x120, .exchPolicy, 1, 4, false, .j⟩]

/-- Table 17.3. -/
def glbTenRows : List MapRow :=
  [⟨0x00, .tenBudArray, 1, 4, false, .j⟩, ⟨0x04, .tenBudStack, 1, 4, false, .j⟩, ⟨0x08, .tenBudLink, 1, 4, false, .j⟩,
   ⟨0x0C, .tenBudQuisto, 1, 4, false, .j⟩, ⟨0x10, .tenEvqCap, 1, 4, false, .j⟩, ⟨0x18, .tenRngSeed, 1, 8, true, .j⟩,
   ⟨0x20, .tenBal, 4, 8, true, .j⟩, ⟨0x40, .tenUsed, 4, 8, true, .j⟩, ⟨0x60, .tenExh, 4, 4, false, .j⟩,
   ⟨0x70, .tenOverrun, 1, 4, false, .j⟩, ⟨0x78, .tenSpilled, 1, 8, true, .j⟩, ⟨0x80, .tenRecovery, 1, 8, true, .j⟩]

/-- Table 17.4, but for FEED, the queue blocks and the yo-yo record. -/
def cpRows : List MapRow :=
  [⟨0x0000, .evqBase, 1, 8, true, .j⟩, ⟨0x0008, .evqCtrl, 1, 4, false, .j⟩, ⟨0x000C, .evqHead, 1, 4, false, .j⟩,
   ⟨0x0010, .evqTail, 1, 4, false, .j⟩, ⟨0x0014, .evqLost, 1, 4, false, .j⟩, ⟨0x0018, .dbReject, 1, 4, false, .j⟩,
   ⟨0x0020, .yoyoSel, 1, 4, false, .j⟩, ⟨0x0100, .vecMod, 64, 4, false, .j⟩]

/-- Table 17.5. -/
def partRows : List MapRow :=
  [⟨0x000, .cells, 1, 4, false, .j⟩, ⟨0x004, .queues, 1, 4, false, .j⟩, ⟨0x008, .memQuota, 1, 4, false, .j⟩,
   ⟨0x00C, .rowcache, 1, 4, false, .j⟩, ⟨0x010, .mode, 1, 4, false, .j⟩, ⟨0x014, .toy, 1, 4, false, .j⟩,
   ⟨0x018, .pstate, 1, 4, false, .j⟩, ⟨0x020, .inflightRsv, 1, 8, true, .j⟩, ⟨0x030, .budArray, 1, 4, false, .j⟩,
   ⟨0x034, .budStack, 1, 4, false, .j⟩, ⟨0x038, .budLink, 1, 4, false, .j⟩, ⟨0x03C, .budCtrl, 1, 4, false, .j⟩,
   ⟨0x040, .schedCtrl, 1, 4, false, .j⟩, ⟨0x044, .schedNodl, 1, 4, false, .j⟩, ⟨0x04C, .tilePolicy, 1, 4, false, .j⟩,
   ⟨0x050, .embPolicy, 1, 4, false, .j⟩, ⟨0x054, .intPolicy, 1, 4, false, .j⟩, ⟨0x058, .rcAdmit, 1, 4, false, .j⟩,
   ⟨0x05C, .rcTheta, 1, 4, false, .j⟩, ⟨0x060, .rcLookups, 1, 8, true, .j⟩, ⟨0x068, .rcHits, 1, 8, true, .j⟩,
   ⟨0x070, .rcAdmits, 1, 8, true, .j⟩, ⟨0x080, .preempts, 1, 4, false, .j⟩, ⟨0x084, .preemptMax, 1, 4, false, .j⟩,
   ⟨0x088, .toyLoads, 1, 4, false, .j⟩, ⟨0x08C, .toyEvict, 1, 4, false, .j⟩, ⟨0x090, .toyMisses, 1, 4, false, .j⟩,
   ⟨0x094, .teardowns, 1, 4, false, .j⟩, ⟨0x098, .resets, 1, 4, false, .j⟩, ⟨0x09C, .memHeld, 1, 4, false, .j⟩,
   ⟨0x0A0, .pOverrun, 1, 4, false, .j⟩, ⟨0x0C0, .pBal, 3, 8, true, .j⟩, ⟨0x0E0, .pUsed, 3, 8, true, .j⟩,
   ⟨0x100, .pExh, 3, 4, false, .j⟩, ⟨0x140, .bpEpisodes, 5, 4, false, .j1⟩, ⟨0x160, .bpThresh, 5, 4, false, .j1⟩,
   ⟨0x180, .bpTicks, 5, 8, true, .j1⟩, ⟨0x200, .pStall, 16, 8, true, .j⟩]

/-- Table 17.6, registers of a cell. -/
def cellRows : List MapRow :=
  [⟨0x000, .arrayFenced, 1, 4, false, .j⟩, ⟨0x004, .feedSel, 1, 4, false, .j⟩, ⟨0x008, .feedWaste, 1, 4, false, .j⟩,
   ⟨0x010, .stopTicks, 1, 8, true, .j⟩, ⟨0x200, .cStall, 16, 8, true, .j⟩]

/-- Table 17.6, registers of an array: offset in the array's record. -/
def arrayRegs : List (Nat × RegName) :=
  [(0x00, .tilesCommitted), (0x04, .tileMismatch), (0x08, .tileRetried), (0x0C, .tileWatchdog), (0x10, .tileReplayed),
   (0x14, .chkCol), (0x18, .chkRow), (0x1C, .chkGate), (0x20, .chkStage), (0x24, .tileNonfinite)]

/-- Table 17.7. -/
def intRows : List MapRow :=
  [⟨0x0, .splitCtrl, 1, 4, false, .j⟩, ⟨0x4, .splitThresh, 1, 4, false, .j⟩, ⟨0x8, .split, 1, 4, false, .j⟩]

/-- Table 17.8, registers of a memory island. -/
def memRows : List MapRow :=
  [⟨0x00, .freePages, 1, 4, false, .j⟩, ⟨0x04, .dirtyPages, 1, 4, false, .j⟩, ⟨0x08, .retiredPages, 1, 4, false, .j⟩,
   ⟨0x0C, .zeroed, 1, 4, false, .j⟩, ⟨0x10, .ifPolicy, 1, 4, false, .j⟩, ⟨0x14, .scrub, 1, 4, false, .j⟩]

/-- Table 17.8, registers of a channel. -/
def chanRows : List MapRow :=
  [⟨0x00, .parErr, 1, 4, false, .j⟩, ⟨0x04, .retries, 1, 4, false, .j⟩, ⟨0x08, .retryExh, 1, 4, false, .j⟩,
   ⟨0x0C, .ce, 1, 4, false, .j⟩, ⟨0x10, .ue, 1, 4, false, .j⟩, ⟨0x14, .poisonReads, 1, 4, false, .j⟩,
   ⟨0x18, .scrubPasses, 1, 4, false, .j⟩, ⟨0x1C, .chanState, 1, 4, false, .j⟩, ⟨0x20, .temp, 1, 4, false, .j⟩,
   ⟨0x24, .tempMax, 1, 4, false, .j⟩]

/-- Table 17.9, registers of a link. -/
def lnkRows : List MapRow :=
  [⟨0x000, .lnkCtrl, 1, 4, false, .j⟩, ⟨0x004, .lnkStatus, 1, 4, false, .j⟩, ⟨0x008, .eqCtrl, 1, 4, false, .j⟩,
   ⟨0x010, .eqState, 4, 4, false, .j⟩, ⟨0x040, .txFlits, 1, 8, true, .j⟩, ⟨0x048, .rxFlits, 1, 8, true, .j⟩,
   ⟨0x050, .lnkRetries, 1, 8, true, .j⟩, ⟨0x058, .badFlits, 1, 8, true, .j⟩, ⟨0x060, .rxBadkind, 1, 8, true, .j⟩,
   ⟨0x068, .fwdFlits, 1, 8, true, .j⟩, ⟨0x070, .fwdDrop, 1, 8, true, .j⟩, ⟨0x078, .retrains, 1, 8, true, .j⟩,
   ⟨0x080, .rtt, 1, 8, true, .j⟩, ⟨0x0A0, .fecCorr, 4, 8, true, .j⟩]

/-- Table 17.9, the shared part. -/
def lnkSharedRows : List MapRow := [⟨0x000, .lnkDevice, 1, 4, false, .j⟩, ⟨0x100, .route, 64, 4, false, .i⟩]

/-- Table 17.10, registers by tenant. -/
def tenRows : List MapRow :=
  [⟨0x0000, .queueRange, 1, 4, false, .j⟩, ⟨0x0004, .partition, 1, 4, false, .j⟩, ⟨0x0028, .evqCapped, 1, 4, false, .j⟩,
   ⟨0x0040, .tenBalView, 4, 8, true, .j⟩, ⟨0x0068, .sealGen, 1, 4, false, .j⟩, ⟨0x0080, .quantSat, 1, 4, false, .j⟩,
   ⟨0x0084, .quantNan, 1, 4, false, .j⟩, ⟨0x0088, .quantMisfit, 1, 4, false, .j⟩, ⟨0x008C, .quantWidened, 1, 4, false, .j⟩,
   ⟨0x0090, .quantDrift, 1, 4, false, .j⟩, ⟨0x0094, .quantDriftLost, 1, 4, false, .j⟩, ⟨0x0098, .embBadidx, 1, 4, false, .j⟩,
   ⟨0x009C, .embFarErr, 1, 4, false, .j⟩, ⟨0x00A4, .memBarDenied, 1, 4, false, .j⟩, ⟨0x00A8, .rtMisses, 1, 4, false, .j⟩,
   ⟨0x00AC, .seqPageIns, 1, 4, false, .j⟩, ⟨0x00B0, .seqPageOuts, 1, 4, false, .j⟩, ⟨0x00B4, .seqOrder, 1, 4, false, .j⟩,
   ⟨0x00C4, .frameAge, 1, 4, false, .j⟩, ⟨0x00C8, .frameFuture, 1, 4, false, .j⟩, ⟨0x00CC, .frameStale, 1, 4, false, .j⟩,
   ⟨0x00D0, .frameFutureCnt, 1, 4, false, .j⟩, ⟨0x00D4, .badrec, 1, 4, false, .j⟩, ⟨0x00D8, .trunc, 1, 4, false, .j⟩,
   ⟨0x00DC, .locDropped, 1, 4, false, .j⟩, ⟨0x00E0, .locReduced, 1, 4, false, .j⟩, ⟨0x00E4, .locRefused, 1, 4, false, .j⟩,
   ⟨0x00E8, .sceneTag, 1, 4, false, .j⟩, ⟨0x0100, .tStall, 16, 8, true, .j⟩, ⟨0x0400, .fence, 64, 8, true, .j⟩]

/-- Table 17.10, registers by function. -/
def tenFnRows : List MapRow :=
  [⟨0x0010, .evqBase, 1, 8, true, .j⟩, ⟨0x0018, .evqCtrl, 1, 4, false, .j⟩, ⟨0x001C, .evqHead, 1, 4, false, .j⟩,
   ⟨0x0020, .evqTail, 1, 4, false, .j⟩, ⟨0x0024, .evqLost, 1, 4, false, .j⟩, ⟨0x002C, .dbReject, 1, 4, false, .j⟩,
   ⟨0x0200, .vecMod, 32, 4, false, .j⟩]

/-- Table 17.11. -/
def hostRows : List MapRow :=
  [⟨0x000, .ptmCtrl, 1, 4, false, .j⟩, ⟨0x004, .ptmStatus, 1, 4, false, .j⟩, ⟨0x008, .ptmOffset, 1, 8, true, .j⟩,
   ⟨0x020, .nvmeCtrl, 1, 4, false, .j⟩, ⟨0x024, .nvmeDenied, 1, 4, false, .j⟩, ⟨0x100, .nvmeBar, 8, 8, true, .i⟩,
   ⟨0x140, .nvmeCfg, 8, 8, true, .i⟩, ⟨0x180, .nvmeNsid, 8, 4, false, .i⟩]

/-- Table 17.12, but for KEY_STATUS. -/
def qstRows : List MapRow :=
  [⟨0x00, .qstPolicy, 1, 4, false, .j⟩, ⟨0x10, .entStatus, 2, 4, false, .i⟩, ⟨0x20, .residueErr, 2, 4, false, .i⟩]

/-- Table 17.13, but for LOG_DATA and SVN_COMMIT. -/
def safeRows : List MapRow :=
  [⟨0x000, .safePolicy, 1, 4, false, .j⟩, ⟨0x004, .logHead, 1, 4, false, .j⟩, ⟨0x008, .logSel, 1, 4, false, .j⟩,
   ⟨0x00C, .lateCount, 1, 4, false, .j⟩, ⟨0x040, .classCount, 17, 4, false, .i1⟩, ⟨0x100, .windup, 1, 4, false, .j⟩,
   ⟨0x104, .windupTime, 1, 4, false, .j⟩, ⟨0x108, .bootStatus, 1, 4, false, .j⟩, ⟨0x10C, .bootPrefer, 1, 4, false, .j⟩,
   ⟨0x114, .mgmtDevnum, 1, 4, false, .j⟩, ⟨0x120, .bootDigest, 4, 8, true, .j⟩]

/-- Table 17.14. -/
def pwrRows : List MapRow :=
  [⟨0x000, .loopCfg, 1, 4, false, .j⟩, ⟨0x004, .throttle, 1, 4, false, .j⟩, ⟨0x008, .brake, 1, 4, false, .j⟩,
   ⟨0x00C, .droop, 1, 4, false, .j⟩, ⟨0x010, .cap, 1, 4, false, .j⟩, ⟨0x014, .capCfg, 1, 4, false, .j⟩,
   ⟨0x018, .capStatus, 1, 4, false, .j⟩, ⟨0x01C, .power, 1, 4, false, .j⟩, ⟨0x020, .energy, 1, 8, true, .j⟩,
   ⟨0x100, .islCtrl, 33, 4, false, .i⟩, ⟨0x200, .islStatus, 33, 4, false, .i⟩, ⟨0x300, .islTemp, 33, 4, false, .i⟩,
   ⟨0x400, .droopCount, 33, 4, false, .i⟩]

/-- GLB (Tables 17.2, 17.3). -/
def glbAt (o : Nat) : Loc :=
  if o = 0x24 then .deviceReset
  else if o < 0x10000 then regRow glbRows 0 o
  else if o < 0x14000 then regRow glbTenRows ((o - 0x10000) / 0x100) (o % 0x100)
  else if 0x20000 ≤ o ∧ o < 0x28000 ∧ o % 8 = 0 then .reg ⟨.fence, (o - 0x20000) / 0x200, o % 0x200 / 8⟩ true
  else .empty

/-- A queue block: its offsets beyond 0x27 are reserved (Table 02.11). -/
def queueAt (q o : Nat) : Loc := if o = 0 ∨ o = 8 ∨ (16 ≤ o ∧ o < 0x28) then .queue q o else .empty

/-- CP (Table 17.4). -/
def cpAt (o : Nat) : Loc :=
  if o = 0x28 ∨ o = 0x30 then .yoyo ((o - 0x28) / 8)
  else if 0x200 ≤ o ∧ o < 0x400 then (if o % 8 = 0 then .reg ⟨.fence, 64, (o - 0x200) / 8⟩ true else .empty)
  else if o < 0x1000 then regRow cpRows 0 o
  else if 0x80000 ≤ o ∧ o < 0x90000 then .reg ⟨.feed, (o - 0x80000) / 4, 0⟩ false
  else if 0x100000 ≤ o ∧ o < 0x200000 then queueAt ((o - 0x100000) / 64) (o % 64)
  else .empty

/-- PART (Table 17.5). -/
def partAt (p o : Nat) : Loc := if o = 0x48 then .schedCmd p else regRow partRows p o

/-- CELL (Table 17.6). -/
def cellAt (n o : Nat) : Loc :=
  if 0x20 ≤ o ∧ o < 0x40 then (if o % 8 = 0 then .feedData n ((o - 0x20) / 8) else .empty)
  else if 0x100 ≤ o ∧ o < 0x200 then
    let a := (o - 0x100) / 0x40
    let k := o % 0x40
    if k = 0x28 then .reg ⟨.arrayBusy, n, a⟩ true
    else match arrayRegs.find? fun e => e.1 == k with
      | some e => .reg ⟨e.2, n, a⟩ false
      | none => .empty
  else regRow cellRows n o

/-- MEM (Table 17.8). -/
def memAt (o : Nat) : Loc :=
  if o < 0x8000 then regRow memRows (o / 0x1000) (o % 0x1000)
  else if 0x10000 ≤ o ∧ o < 0x14000 then regRow chanRows ((o - 0x10000) / 0x100) (o % 0x100)
  else .empty

/-- LNK (Table 17.9). -/
def lnkAt (o : Nat) : Loc :=
  if o < 0x10000 then regRow lnkRows (o / 0x1000) (o % 0x1000) else regRow lnkSharedRows 0 (o - 0x10000)

/-- SAFE (Table 17.13). -/
def safeAt (o : Nat) : Loc :=
  if 0x10 ≤ o ∧ o < 0x30 then (if o % 8 = 0 then .logData ((o - 0x10) / 8) else .empty)
  else if o = 0x110 then .svn
  else regRow safeRows 0 o

/-- QST (Table 17.12). -/
def qstAt (o : Nat) : Loc := if o = 4 then .keyStatus else regRow qstRows 0 o

/-- The TEN block of tenant `t` (Table 17.10); queue blocks and FEED are those of the tenant's range (R369). -/
def State.tenAt (s : State) (t o : Nat) : Loc :=
  if o = 0x60 then .rngSeed t
  else if o = 0xA0 then .tenHeld t
  else if o = 0xC0 then .intSplit t
  else if 0x1000 ≤ o ∧ o < 0x3000 then
    let i := (o - 0x1000) / 4
    if i < (s.qRange t).2 then .reg ⟨.feed, (s.qRange t).1 + i, 0⟩ false else .empty
  else if 0x10000 ≤ o ∧ o < 0x30000 then
    let i := (o - 0x10000) / 64
    if i < (s.qRange t).2 then queueAt ((s.qRange t).1 + i) (o % 64) else .empty
  else match regRow tenFnRows (vf t) o with
    | .empty => regRow tenRows t o
    | l => l

/-- What begins at a word of PF BAR0 (Table 17.1). -/
def State.pfAt (s : State) (o : Nat) : Loc :=
  if o < 0x100000 then glbAt o
  else if o < 0x300000 then cpAt (o - 0x100000)
  else if o < 0x400000 then partAt ((o - 0x300000) / 0x10000) (o % 0x10000)
  else if o < 0x1400000 then
    let k := (o - 0x400000) % 0x40000
    if k < 0x3E000 then s.tenAt ((o - 0x400000) / 0x40000) k else .empty
  else if o < 0x1500000 then cellAt ((o - 0x1400000) / 0x10000) (o % 0x10000)
  else if o < 0x1600000 then memAt (o - 0x1500000)
  else if o < 0x1700000 then lnkAt (o - 0x1600000)
  else if o < 0x1710000 then regRow hostRows 0 (o - 0x1700000)
  else if o < 0x1720000 then
    let k := o - 0x1710000
    if k < 0x100 then regRow intRows (k / 16) (k % 16) else .empty
  else if o < 0x1730000 then qstAt (o - 0x1720000)
  else if o < 0x1740000 then safeAt (o - 0x1730000)
  else if o < 0x1750000 then regRow pwrRows 0 (o - 0x1740000)
  else if 0x3FF0000 ≤ o ∧ o < 0x3FF0400 then .msix 0 ((o - 0x3FF0000) / 16) (o % 16 / 4)
  else if 0x3FF8000 ≤ o ∧ o < 0x3FF8008 then .pba 0 ((o - 0x3FF8000) / 4)
  else .empty

/-- What begins at a word of a function's BAR0 (R368). -/
def State.locAt (s : State) (fn o : Nat) : Loc :=
  match tenantOf fn with
  | none => s.pfAt o
  | some t =>
    if 0x3E000 ≤ o ∧ o < 0x3E200 then .msix fn ((o - 0x3E000) / 16) (o % 16 / 4)
    else if 0x3F000 ≤ o ∧ o < 0x3F008 then .pba fn ((o - 0x3F000) / 4)
    else if o < 0x3E000 then s.tenAt t o
    else .empty

/-- A 64-bit register. -/
def Loc.wide : Loc → Bool
  | .reg _ w => w
  | .queue _ o => o == 0 || o == 8
  | .yoyo _ => true
  | .feedData _ _ => true
  | .logData _ => true
  | .rngSeed _ => true
  | _ => false

/-! ### Reading -/

/-- Q_CTRL: RESTART reads as zero (Table 02.12). -/
def Queue.ctrl (Q : Queue) : Nat :=
  b01 Q.enable + b01 Q.pause * 2 + b01 Q.stepAbort * 8 + Q.log2 % 32 * 256 + Q.vector % 32 * 65536

/-- Q_STATUS (Table 02.12). -/
def State.qStatus (s : State) (q : Nat) : Nat :=
  let Q := s.queue q
  let st := s.qState q
  let held := s.cp.steps.ents.any fun e => match e.2 with
    | some k => k.explicit && k.admitted && decide (Q.openSid = some e.1)
    | none => false
  st + b01 held * 8 + Q.inflight % 128 * 16 + (if st = 3 then holdCause Q.holds else 0) * 65536 + (if st = 5 then Q.cause else 0) * 2 ^ 20

/-- A word or double word of a queue block. -/
def State.queueVal (s : State) (q o : Nat) : W64 :=
  let Q := s.queue q
  if o = 0 then Q.ringBase
  else if o = 8 then Q.cplBase
  else if o = 0x10 then w64 Q.ctrl
  else if o = 0x14 then w64 (s.qStatus q)
  else if o = 0x18 then w64 Q.head.toNat
  else if o = 0x1C then w64 Q.tail.toNat
  else if o = 0x20 then w64 Q.done.toNat
  else w64 Q.deadline.toNat

/-- The yo-yo record of the explicit open step of the queue that CP.YOYO_SEL names (Table 05.6); 16 zero bytes where there is none. -/
def State.yoyoRead (s : State) : List W8 :=
  let q := s.rfld .yoyoSel 0 14
  match s.cp.steps.ents.findSome? fun e => match e.2 with
    | some st => if st.q = q ∧ st.explicit ∧ st.admitted then st.yoyo else none
    | none => none with
  | some y => yoyoBytes y
  | none => List.replicate 16 0

/-- The stream that CELL.FEED_SEL names, while it is in flight (R236): its command, its tile, whether that is the lookahead tile, and the cause
that stalls it. -/
def State.selStream (s : State) (n : Nat) : Option (Ctx × Nat × Bool × Option Nat × Stream) :=
  let k := 4 * n + s.rfld .feedSel 0 2 n
  let a := s.arr k
  let cls := s.rfld .feedSel 3 2 n
  if s.rbit .feedSel 2 n then
    match a.look with
    | some (id, ord) => match s.ctx? id, a.lookStreams.find? fun st => st.cls = cls with
      | some x, some st => some (x, ord, true, s.lookCause k x st, st)
      | _, _ => none
    | none => none
  else match a.fly with
    | some f => match f.job with
      | .tile id ord _ => match s.ctx? id, f.streams.find? fun st => !f.ready && decide (st.cls = cls) with
        | some x, some st => some (x, ord, false, s.flyCause x f st, st)
        | _, _ => none
      | .selftest => none
    | none => none

/-- SRC of Table 11.3: the address of the next region.  A model's bytes and a pool's pages have no address in the form of R31, and a stream
that has fetched everything has no next region: there the value is free (assumption log 14). -/
def State.nextSrc (s : State) (st : Stream) : W64 × State :=
  match st.next with
  | some (g, r) => match g.src, g.frags r with
    | .op a, f :: _ => (addrAdd a f.1, s)
    | _, _ => s.free
  | none => s.free

/-- The descriptor of Table 11.3. -/
def State.feedBytes (s : State) (n : Nat) : List W8 × State :=
  match s.selStream n with
  | none => (List.replicate 32 0, s)
  | some (x, ord, look, why, st) =>
    let (src, t) := s.nextSrc st
    (toBytes 8 src.toNat ++ toBytes 4 (st.total - st.fetched) ++ toBytes 2 st.regs.length ++ toBytes 1 (min 255 st.win) ++
      toBytes 1 (st.cls + b01 st.credit * 4 + b01 look * 8) ++ toBytes 4 x.id.c.toNat ++ toBytes 4 ord ++
      toBytes 2 (x.id.q % 16384) ++ toBytes 1 (match why with
        | some c => c + 1
        | none => 0) ++ [0] ++ toBytes 4 (sat (2 ^ 32 - 1) st.ticks), t)

/-- Pending bits of 32 vectors of a function (R352). -/
def State.pbaWord (s : State) (fn k : Nat) : Nat :=
  (List.range 32).foldl (fun n b => n + b01 (s.cp.vecs.get (fn, 32 * k + b)).pendBit * 2 ^ b) 0

/-- A word of an MSI-X table entry. -/
def State.msixWord (s : State) (fn v k : Nat) : Nat :=
  let x := s.cp.vecs.get (fn, v)
  if k = 0 then x.addr.toNat % 2 ^ 32 else if k = 1 then x.addr.toNat / 2 ^ 32 else if k = 2 then x.data.toNat else b01 x.mask

/-- SAFE.WINDUP.THROTTLED: Windup waits on a throttled island (R342). -/
def State.windupVal (s : State) : Nat :=
  setFld (s.rnat .windup) 17 1 (b01 (!s.win.ready && (List.range 33).any fun k => decide (3 ≤ (s.isl k).level)))

/-- The value that stands at a location, 32 or 64 bits; write-only registers and empty offsets read zero (R7, R367). -/
def State.locVal (s : State) (l : Loc) : W64 × State :=
  match l with
  | .empty => (0, s)
  | .reg r _ =>
    if r.n = .chanState then (w64 (setFld (s.rnat .chanState r.i) 0 11 (s.listed r.i)), s)
    else if r.n = .windup then (w64 s.windupVal, s)
    else (s.rget r, s)
  | .queue q o => (s.queueVal q o, s)
  | .yoyo k => (w64 (natAt s.yoyoRead (8 * k) 8), s)
  | .feedData n k => let (b, t) := s.feedBytes n; (w64 (natAt b (8 * k) 8), t)
  | .logData k => (w64 (natAt (s.logEntry (s.rnat .logSel)) (8 * k) 8), s)
  | .keyStatus => (w64 s.keyStatus, s)
  | .rngSeed t => (s.rget ⟨.tenRngSeed, t, 0⟩, s)
  | .intSplit t => (w64 (match s.tenPart t with
      | some p => s.rfld .split 0 7 p
      | none => 0x40), s)
  | .tenHeld t => (w64 (s.mem.maps.ents.filter fun e => e.1.1 = vf t ∧ e.2.valid).length, s)
  | .deviceReset => (0, s)
  | .schedCmd _ => (0, s)
  | .svn => (0, s)
  | .msix fn v k => (w64 (s.msixWord fn v k), s)
  | .pba fn k => (w64 (s.pbaWord fn k), s)

/-- Where halves of a location are staged or latched for a function. -/
def Loc.half (l : Loc) (fn : Nat) : HalfKey ⊕ QHalfKey :=
  match l with
  | .reg r _ => .inl ⟨fn, r, false⟩
  | .queue q o => .inr ⟨fn, q, o⟩
  -- views and records keep a latch of their own, under the register that selects them
  | .yoyo k => .inl ⟨fn, ⟨.yoyoSel, 1, k⟩, false⟩
  | .feedData n k => .inl ⟨fn, ⟨.feedSel, n, k + 1⟩, false⟩
  | .logData k => .inl ⟨fn, ⟨.logSel, 1, k⟩, false⟩
  | .rngSeed t => .inl ⟨fn, ⟨.tenRngSeed, t, 1⟩, false⟩
  | _ => .inl ⟨fn, ⟨.epoch, 0, 0⟩, false⟩

/-- The register file with a latch set or released (R10). -/
def RegFile.latch (f : RegFile) (k : HalfKey ⊕ QHalfKey) (v : Option W32) : RegFile :=
  match k with
  | .inl k => { f with latched := match v with
      | some w => assocSet f.latched k w
      | none => Tab.drop k f.latched }
  | .inr k => { f with qLatched := match v with
      | some w => assocSet f.qLatched k w
      | none => Tab.drop k f.qLatched }

/-- The latch of a half. -/
def RegFile.latch? (f : RegFile) : HalfKey ⊕ QHalfKey → Option W32
  | .inl k => assoc? f.latched k
  | .inr k => assoc? f.qLatched k

/-- A 32-bit read of a function at a word (R10): the lower half of a 64-bit register latches its upper half. -/
def State.readWord (s : State) (fn o : Nat) : W32 × State :=
  let b := s.locAt fn (o / 8 * 8)
  if b.wide then
    let k := b.half fn
    if o % 8 = 0 then
      let (v, t) := s.locVal b
      (w32 v.toNat, { t with rf := t.rf.latch k (some (w32 (v.toNat / 2 ^ 32))) })
    else match s.rf.latch? k with
      | some w => (w, { s with rf := s.rf.latch k none })
      | none =>
        let (v, t) := s.locVal b
        (w32 (v.toNat / 2 ^ 32), t)
  else
    let (v, t) := s.locVal (s.locAt fn o)
    (w32 v.toNat, t)

/-- A read of `size` bytes at an offset of a function's BAR0 (R10, R367): other sizes and alignments return zero. -/
def State.busRead (s : State) (fn o size : Nat) : W64 × State :=
  if (size ≠ 4 ∧ size ≠ 8) ∨ o % size ≠ 0 then (0, s)
  else if size = 4 then
    let (v, t) := s.readWord fn o
    (w64 v.toNat, t)
  else if (s.locAt fn o).wide then s.locVal (s.locAt fn o)
  else
    let (lo, t) := s.readWord fn o
    let (hi, u) := t.readWord fn (o + 4)
    (w64 (lo.toNat + hi.toNat * 2 ^ 32), u)

/-! ### Writing -/

/-- How a register takes a write: not at all, into fields of a mask at once, into fields of a mask of the shadow copy (R7), or by an action. -/
inductive Wr where
  | ro | rw (mask : Nat) | rwe (mask : Nat) | act
deriving DecidableEq, Repr

/-- Access of every register, by its field tables. -/
def wrOf : RegName → Wr
  | .cells => .rwe 0xFFFF
  | .queues => .rwe 0x7FFF3FFF
  | .memQuota => .rwe 0xFFFF
  | .rowcache => .rwe 0xFF
  | .mode => .rwe 7
  | .toy => .rwe 0x01FF01FF
  | .inflightRsv => .rwe 0x000007FF07FF1FFF
  | .budArray => .rwe 0x1FFF
  | .budStack => .rwe 0xFFFFFFFF
  | .budLink => .rwe 0xFFFF
  | .budCtrl => .rwe 7
  | .schedCtrl => .rwe 1
  | .schedNodl => .rwe 0xFFFFFFFF
  | .tilePolicy => .rwe 0xF
  | .embPolicy => .rwe 0xFFFF
  | .intPolicy => .rwe 1
  | .rcAdmit => .rwe 0xFFFFFFFF
  | .tenBudArray => .rwe 0x1FFF
  | .tenBudStack => .rwe 0xFFFFFFFF
  | .tenBudLink => .rwe 0xFFFF
  | .tenBudQuisto => .rwe 0xFF
  | .tenEvqCap => .rwe 0xFFFF
  | .tenRngSeed => .rwe 0xFFFFFFFFFFFFFFFF
  | .bgSelftest => .rwe 0x3F
  | .bgMigStack => .rwe 0xFFFFFFFF
  | .bgMigLink => .rwe 0xFFFF
  | .bgZeroStack => .rwe 0xFFFFFFFF
  | .bgCtrl => .rwe 1
  | .embPlace => .rwe 0x1FFFFFF
  | .embRepl => .rwe 0x1FFFFFFF
  | .exchPolicy => .rwe 0xFFFF07
  | .ifPolicy => .rwe 0xFFFFFF
  | .scrub => .rwe 0x1FFFF
  | .splitCtrl => .rwe 0xFF07FF7F
  | .splitThresh => .rwe 0xFFFF00FF
  | .qstPolicy => .rwe 7
  | .safePolicy => .rwe 7
  | .partition => .rwe 0x8F
  | .loopCfg => .rwe 0xFFF
  | .throttle => .rwe 0xF7F
  | .brake => .rwe 7
  | .droop => .rwe 0xFF
  | .capCfg => .rwe 0xF
  | .epochHold => .rw 0xFFFFFFFF
  | .quantCtrl => .rw 1
  | .vecMod => .rw 0xFFFFFFFF
  | .yoyoSel => .rw 0x3FFF
  | .feed => .rw 0xFF0F
  | .bpThresh => .rw 0xFFFFFFFF
  | .feedSel => .rw 0x1F
  | .eqCtrl => .rw 0xFF1
  | .route => .rw 0x81FFFFFF
  | .frameAge => .rw 0xFFFFFFFF
  | .frameFuture => .rw 0xFFFFFFFF
  | .ptmCtrl => .rw 0xFF01
  | .logSel => .rw 0xFF
  | .epochCtrl => .act
  | .partReset => .act
  | .evqBase => .act
  | .evqCtrl => .act
  | .evqHead => .act
  | .arrayFenced => .act
  | .lnkCtrl => .act
  | .lnkDevice => .act
  | .queueRange => .act
  | .nvmeCtrl => .act
  | .nvmeBar => .act
  | .nvmeCfg => .act
  | .nvmeNsid => .act
  | .cap => .act
  | .islCtrl => .act
  | _ => .ro

/-- A register with RWE fields. -/
def isRwe (n : RegName) : Bool :=
  match wrOf n with
  | .rwe _ => true
  | _ => false

/-- A value with the fields of a mask replaced. -/
def maskPut (old mask v : Nat) : Nat := (old - (old &&& mask)) + (v &&& mask)

/-- A write of EVQ_CTRL (Table 02.13): LOG2_SIZE only while ENABLE is 0, VECTOR always, then ENABLE; a write of ENABLE = 1 that is
refused has no effect at all (R39). -/
def State.evqCtrlWrite (s : State) (fn v : Nat) : State :=
  let on := s.rbit .evqCtrl 0 fn
  let s1 := (if on then s else s.rsetFld .evqCtrl 8 5 (fld v 8 5) fn).rsetFld .evqCtrl 16 5 (fld v 16 5) fn
  let s2 := s1.evqEnableRow fn
  if bit v 0 then (if s2.rbit .evqCtrl 0 fn then s2 else s) else s1.rsetFld .evqCtrl 0 1 0 fn

/-- A write of LNK.CTRL (Table 09.4). -/
def State.lnkCtrlWrite (s : State) (l v : Nat) (h : HostData) : State :=
  let s1 := s.rput .lnkCtrl l 0 (maskPut (s.rnat .lnkCtrl l) 0xF0E v)
  if bit v 0 then s1.linkEnable l else s1.linkDisable l h

/-- Registers whose write is an action. -/
def State.actWrite (s : State) (fn : Nat) (r : Reg) (v : Nat) (h : HostData) : State :=
  match r.n with
  | .epochCtrl => if bit v 0 then s.openEpoch else s.abandonEpoch
  | .partReset => s.partResetWrite (v % 65536)
  | .evqBase => if s.rbit .evqCtrl 0 r.i then s else s.rput .evqBase r.i 0 (v - v % 4096)
  | .evqCtrl => s.evqCtrlWrite r.i v
  | .evqHead => s.evqHeadWrite r.i (w32 v)
  | .arrayFenced => s.fenceClear r.i v
  | .lnkCtrl => s.lnkCtrlWrite r.i v h
  | .lnkDevice => s.linkDeviceWrite v
  | .queueRange => if fn = 0 then s.queueRangeWrite r.i v else s
  | .nvmeCtrl => s.areaEnable v
  | .nvmeBar => if s.rbit .nvmeCfg 0 r.i then s else s.rput .nvmeBar r.i 0 (v - v % 4096)
  | .nvmeCfg => s.driveCfg r.i v
  | .nvmeNsid => if s.rbit .nvmeCfg 0 r.i then s else s.rput .nvmeNsid r.i 0 v
  | .cap => s.capWrite v false
  | .islCtrl => s.islCtrlWrite r.i v
  | _ => s

/-- A register of a TEN block that the PF and its VF can both write (Table 17.10). -/
def State.vfShared (s : State) (r : Reg) : Bool :=
  match r.n with
  | .evqBase | .evqCtrl | .evqHead | .vecMod => r.i != 0
  | .feed => s.owner r.i != 0
  | .frameAge | .frameFuture => true
  | _ => false

/-- The PF's write, this very tick, of a register or a word of a queue block. -/
def State.pfWrote? (s : State) (k : Reg ⊕ (Nat × Nat)) : Option Nat :=
  if s.rf.pfNow.1 = s.now then assoc? s.rf.pfNow.2 k else none

/-- A PF write is remembered for the tick. -/
def State.notePf (s : State) (k : Reg ⊕ (Nat × Nat)) (v : Nat) : State :=
  { s with rf := { s.rf with pfNow := (s.now, (k, v) :: if s.rf.pfNow.1 = s.now then s.rf.pfNow.2 else []) } }

/-- A write of a function, `put`, of what both the PF and a VF can write: in one cycle the VF's write takes effect first and the PF's second
(R368), so a PF write of the same tick takes effect again after the VF's (assumption log 77). -/
def State.inTurn (s : State) (fn : Nat) (k : Reg ⊕ (Nat × Nat)) (v : Nat) (put : State → (fn v : Nat) → State) : State :=
  if fn = 0 then (put s 0 v).notePf k v
  else match s.pfWrote? k with
    | some w => put (put s fn v) 0 w
    | none => put s fn v

/-- A vector remembers the moderator setting in force at the start of this tick, which a write of VEC_MOD replaces from the next on (R87). -/
def Vec.noteOld (x : Vec) (now : W64) (v : Nat) : Vec :=
  if x.old.any fun e => e.1 = now then x else { x with old := some (now, w64 v) }

/-- The fields of a register a mask names are stored. -/
def State.storeField (s : State) (r : Reg) (m v : Nat) : State :=
  let t := s.rput r.n r.i r.j (maskPut (s.rget r).toNat m v)
  if r.n = .vecMod then t.updVec r.i r.j fun x => x.noteOld s.now (s.vecMod r.i r.j) else t

/-- What a whole write of a register by a function does (R7). -/
def State.regPut (s : State) (fn : Nat) (r : Reg) (v : Nat) (h : HostData) : State :=
  match wrOf r.n with
  | .ro => s
  | .rw m => s.storeField r m v
  | .rwe m => if fn = 0 then s.rweWrite r m v else s
  | .act => s.actWrite fn r v h

/-- A whole write of a register by a function (R7, R368). -/
def State.regWrite (s : State) (fn : Nat) (r : Reg) (v : Nat) (h : HostData) : State :=
  if s.vfShared r then s.inTurn fn (.inl r) v fun t f w => t.regPut f r w h else s.regPut fn r v h

/-- A write of Q_CTRL (Table 02.12, R40, R41): PAUSE, STEP_ABORT, CPL_VECTOR, and LOG2_SIZE while DISABLED; then RESTART; then ENABLE.  A queue
of a partition in reset takes no control write (Table 14.9). -/
def State.qCtrlWrite (s : State) (fn q v : Nat) : State :=
  if s.qResetting q then s
  else
    let s1 := s.updQueue q fun Q =>
      { Q with
        pause := bit v 1, stepAbort := bit v 3, vector := fld v 16 5
        log2 := if Q.mode = .disabled then fld v 8 5 else Q.log2 }
    let s2 := if bit v 2 then s1.queueRestart fn q else s1
    if bit v 0 then s2.queueEnable fn q else s2.queueDisable fn q

/-- What a whole write of a register of a queue block does (R40). -/
def State.queuePut (s : State) (fn q o v : Nat) : State :=
  let idle := decide ((s.queue q).mode = .disabled)
  if o = 0 then (if idle then s.updQueue q fun Q => { Q with ringBase := w64 (v - v % 4096) } else s)
  else if o = 8 then (if idle then s.updQueue q fun Q => { Q with cplBase := w64 (v - v % 4096) } else s)
  else if o = 0x10 then s.qCtrlWrite fn q v
  else if o = 0x24 then s.updQueue q fun Q => { Q with deadline := w32 v }
  else s

/-- A whole write of a register of a queue block (R40, R368). -/
def State.queueWrite (s : State) (fn q o v : Nat) : State :=
  if s.owner q = 0 then s.queuePut fn q o v else s.inTurn fn (.inr (q, o)) v fun t f w => t.queuePut f q o w

/-- An unmasked vector's moderator is evaluated at once, the DELAY condition met (R87). -/
def State.unmask (s : State) (fn v : Nat) : State :=
  (s.updVec fn v fun x => { x with unmasked := decide (0 < x.pend) }).moderate fn v

/-- A write of a word of an MSI-X table entry. -/
def State.msixWrite (s : State) (fn v k w : Nat) : State :=
  let x := s.cp.vecs.get (fn, v)
  if k = 0 then s.updVec fn v fun x => { x with addr := w64 (x.addr.toNat / 2 ^ 32 * 2 ^ 32 + w) }
  else if k = 1 then s.updVec fn v fun x => { x with addr := w64 (x.addr.toNat % 2 ^ 32 + w * 2 ^ 32) }
  else if k = 2 then s.updVec fn v fun x => { x with data := w32 w }
  else
    let s1 := s.updVec fn v fun x => { x with mask := bit w 0 }
    if x.mask && !bit w 0 then s1.unmask fn v else s1

/-- A whole write of what lies at a location. -/
def State.locWrite (s : State) (fn : Nat) (l : Loc) (v : Nat) (h : HostData) : State :=
  match l with
  | .reg r _ => s.regWrite fn r v h
  | .queue q o => s.queueWrite fn q o v
  | .deviceReset => s.softwareReset v
  | .schedCmd p => if bit v 0 then s.rput .preemptMax p 0 0 else s
  | .svn => s.svnCommit (v % 128)
  | .msix f k w => s.msixWrite f k w v
  | _ => s

/-- A half of a 64-bit register is written (R10): the lower half is staged; the upper half makes the write take effect as a whole. -/
def State.halfWrite (s : State) (fn : Nat) (l : Loc) (upper : Bool) (v : Nat) (h : HostData) : State :=
  match l with
  | .reg r _ =>
    let rwe := isRwe r.n
    if rwe && !(s.epochOpen && !s.epochPending) then (if fn = 0 then s.radd32 .epochDiscards 0 0 1 else s)
    else if wrOf r.n = .ro then s
    else
      let k : HalfKey := ⟨fn, r, rwe⟩
      if !upper then { s with rf := { s.rf with staged := assocSet s.rf.staged k (w32 v) } }
      else
        let cur := if rwe then s.shadowOf r else s.rget r
        let lo := (assoc? s.rf.staged k).getD (w32 cur.toNat)
        ({ s with rf := { s.rf with staged := Tab.drop k s.rf.staged } }).regWrite fn r (lo.toNat + v * 2 ^ 32) h
  | .queue q o =>
    let k : QHalfKey := ⟨fn, q, o⟩
    if !upper then { s with rf := { s.rf with qStaged := assocSet s.rf.qStaged k (w32 v) } }
    else
      let lo := (assoc? s.rf.qStaged k).getD (w32 (s.queueVal q o).toNat)
      ({ s with rf := { s.rf with qStaged := Tab.drop k s.rf.qStaged } }).queueWrite fn q o (lo.toNat + v * 2 ^ 32)
  | _ => s

/-- A 32-bit write at a word. -/
def State.writeWord (s : State) (fn o v : Nat) (h : HostData) : State :=
  let b := s.locAt fn (o / 8 * 8)
  if b.wide then s.halfWrite fn b (o % 8 == 4) v h else s.locWrite fn (s.locAt fn o) v h

/-- The halves staged for a 64-bit register by a function are discarded by a 64-bit write (R10). -/
def RegFile.unstage (f : RegFile) (fn : Nat) : Loc → RegFile
  | .reg r _ => { f with staged := Tab.drop ⟨fn, r, true⟩ (Tab.drop ⟨fn, r, false⟩ f.staged) }
  | .queue q o => { f with qStaged := Tab.drop ⟨fn, q, o⟩ f.qStaged }
  | _ => f

/-- A write of `size` bytes at an offset of a function's BAR0 (R10, R367): other sizes and alignments have no effect. -/
def State.busWrite (s : State) (fn o size : Nat) (v : W64) (h : HostData) : State :=
  if (size ≠ 4 ∧ size ≠ 8) ∨ o % size ≠ 0 then s
  else if size = 4 then s.writeWord fn o (v.toNat % 2 ^ 32) h
  else
    let l := s.locAt fn o
    if l.wide then ({ s with rf := s.rf.unstage fn l }).locWrite fn l v.toNat h
    else (s.writeWord fn o (v.toNat % 2 ^ 32) h).writeWord fn (o + 4) (v.toNat / 2 ^ 32) h

/-! ### Which accesses reach the device (R343, R383) -/

/-- BAR accesses of a function reach its registers: it is READY (or, for the PF's SAFE block, whenever Windup's island runs), and a VF exists. -/
def State.barUp (s : State) (fn : Nat) : Bool := s.win.ready && s.clockOn 28 && (fn == 0 || s.win.vfEnable)

/-- An offset of PF BAR0 in the SAFE block. -/
def inSafe (fn o : Nat) : Bool := fn == 0 && decide (0x1730000 ≤ o) && decide (o < 0x1740000)

/-- A location of the Command Processor: its access comes through only while that island's clock runs (R17). -/
def Loc.ofCp : Loc → Bool
  | .queue .. | .yoyo .. | .schedCmd .. => true
  | .reg r _ => match r.n with
    | .evqBase | .evqCtrl | .evqHead | .evqTail | .evqLost | .yoyoSel | .feed => true
    | _ => false
  | _ => false

/-- The access of a function at an offset comes through: the Host island's clock runs, and the Command Processor's where the location is its
own (R17; assumption log 78). -/
def State.through (s : State) (fn o : Nat) : Bool :=
  s.clockOn 28 && (!(s.locAt fn o).ofCp && !(s.locAt fn (o / 8 * 8)).ofCp || s.clockOn 29)

/-- A register write arrives (R343). -/
def State.bar0Write (s : State) (fn o size : Nat) (v : W64) (h : HostData) : State :=
  if s.through fn o && (s.barUp fn || (inSafe fn o && !s.win.held)) then s.busWrite fn o size v h else s

/-- A register read arrives: its completion carries the value; zero before READY (R343). -/
def State.bar0Read (s : State) (fn o size : Nat) : State :=
  if !s.through fn o then s
  else if s.barUp fn || (inSafe fn o && !s.win.held) then
    let (v, t) := s.busRead fn o size
    t.send (.readData fn (toBytes size v.toNat) false)
  else s.send (.readData fn (List.replicate size 0) false)

/-- The vectors of a function: 64 of the PF, 32 of a VF (R352). -/
def vectors (fn : Nat) : Nat := if fn = 0 then 64 else 32

/-- The state with a function's PCI Express state changed. -/
def State.updFn (s : State) (fn : Nat) (f : FnSt → FnSt) : State := s.withCp fun c => { c with fns := c.fns.upd fn f }

/-- A write of a configuration register (standard positions of its bits, assumption log 15). -/
def State.cfgWrite (s : State) (fn : Nat) (t : RegTarget) (v : Nat) : State :=
  match t with
  | .bar0 _ _ => s
  | .command => s.updFn fn fun f => { f with bme := bit v 2 }
  | .msixControl =>
    let was := (s.cp.fns.get fn).msixMask
    let s1 := s.updFn fn fun f => { f with msixEn := bit v 15, msixMask := bit v 14 }
    if was && !bit v 14 then (List.range (vectors fn)).foldl (fun u k => u.unmask fn k) s1 else s1
  | .devControl2 => s.updFn fn fun f => { f with cto := fld v 0 4, ctoDisable := bit v 4 }
  | .sriovControl => if fn ≠ 0 then s else if bit v 0 then s.withWin fun w => { w with vfEnable := true } else s.vfEnableClear
  | .ptmControl => if fn ≠ 0 then s else s.withWin fun w => { w with ptmEnable := bit v 0 }

/-- Configuration requests complete normally (R343): not with Request Retry Status, and not while the device is held or tripped. -/
def State.cfgUp (s : State) (fn : Nat) : Bool :=
  (s.win.ready || !s.win.rrs || s.rbit .windup 3) && !s.win.held && s.clockOn 28 && (fn == 0 || s.win.vfEnable)

/-- A configuration request that does not complete normally: with Request Retry Status after a conventional reset, until READY or failure
(R343). -/
def State.cfgRetry (s : State) (fn : Nat) : State :=
  if !s.win.ready && s.win.rrs && !s.rbit .windup 3 && !s.win.held && s.clockOn 28 then s.send (.retry fn) else s

/-- A double word of a function's configuration space (R1, R352): its identity; what the manual does not place is free (assumption log 15). -/
def State.cfgWord (s : State) (fn off : Nat) : W32 × State :=
  match off / 4 with
  | 0 => (if fn = 0 then 0x16001F3C else 0xFFFFFFFF, s)
  | 2 => (0x12000010, s)
  | 11 => (0x00011F3C, s)
  | _ =>
    let (v, t) := s.free
    (w32 v.toNat, t)

/-- A read of configuration space. -/
def State.cfgRead (s : State) (fn off : Nat) : State :=
  if s.cfgUp fn then
    let (v, t) := s.cfgWord fn off
    t.send (.readData fn (toBytes 4 v.toNat) false)
  else s.cfgRetry fn

/-- A read of BAR2, where the doorbells are write-only: zero (R27, R343). -/
def State.bar2Read (s : State) (fn size : Nat) : State :=
  if s.clockOn 28 then s.send (.readData fn (List.replicate size 0) false) else s

/-- REGISTER_READ_LATCH: a read of `size` bytes by the host; configuration space answers its double word whole. -/
def State.registerRead (s : State) (fn : Nat) (t : ReadTarget) (size : Nat) : State :=
  match t with
  | .bar0 o => s.bar0Read fn o size
  | .bar2 _ => s.bar2Read fn size
  | .config off => s.cfgRead fn off

/-- REGISTER_WRITE: a write of the host to a register, in BAR0 or in configuration space. -/
def State.registerWrite (s : State) (fn : Nat) (t : RegTarget) (v : W64) (h : HostData) : State :=
  match t with
  | .bar0 o size => s.bar0Write fn o size v h
  | t => if s.cfgUp fn then s.cfgWrite fn t (v.toNat % 2 ^ 32) else s.cfgRetry fn

/-- RWE_WRITE (R7): a PF write of a register with RWE fields. -/
def State.rweRow (s : State) (o size : Nat) (v : W64) : State :=
  let b := s.locAt 0 (o / 8 * 8)
  match if b.wide then b else s.locAt 0 o with
  | .reg r _ => if isRwe r.n then s.bar0Write 0 o size v [] else s
  | _ => s

end Sys2Proof.Machine
end

