-- ==== Sys2Proof/Machine/Stalls.lean ====
section
/-! DEFINITION. The WAIT conditions of R47 and the stall causes of R237: what a context or an array waits for. -/

namespace Sys2Proof.Machine

/-- The CP runs: its clock runs and it has not halted (R307, R329). -/
def State.cpRuns (s : State) : Bool := s.clockOn 29 && !s.cp.halted

/-! ### WAIT conditions (R32, R47, R323) -/

/-- Earlier commands of a queue that a test keeps. -/
def earlier (l : List Ctx) (x : Ctx) : List Ctx := l.takeWhile fun y => decide (y.id ≠ x.id)

/-- The WAIT conditions of a command over the earlier contexts of its queue (R32, R47): all earlier done for WAIT_ALL and the opcodes that
behave so, the preceding one for WAIT_PREV. -/
def waitsMet (x : Ctx) (before : List Ctx) : Bool :=
  let all := bit (x.w 0) 9 || (match opRow x.op with
    | some r => r.waitAll
    | none => false)
  if all then before.all fun y => decide (y.phase = .done)
  else if bit (x.w 0) 8 then (match before.getLast? with
    | some y => decide (y.phase = .done)
    | none => true)
  else true

/-- A FENCE_WAIT among earlier commands has not completed (R323). -/
def fenceAhead (before : List Ctx) : Bool := before.any fun y => y.op == 4 && decide (y.phase ≠ .done)

/-- A STEP_BEGIN among earlier commands has not been admitted. -/
def beginAhead (before : List Ctx) : Bool := before.any fun y => y.op == 1 && decide (y.phase ≠ .done)

/-- The first command of a queue not yet dispatched. -/
def State.nextFetched (s : State) (q : Nat) : Option Ctx := (s.qCtxs q).find? fun x => decide (x.phase = .fetched)

/-! ### Stalls (R237) -/

/-- The address whose bytes a command reads as it is dispatched, checked or begun; 0 where it reads none. -/
def firstRead (x : Ctx) : W64 :=
  match x.op with
  | 0x20 => x.a 12
  | 0x21 => x.a 12
  | 0x22 => x.a 4
  | 0x30 => x.a 4
  | 0x32 => x.a 6
  | 0x33 => x.a 4
  | 0x40 => x.a 4
  | 0x41 => x.a 4
  | 0x42 => x.a 4
  | _ => 0

/-- A command waits with an access it has to pay for, or one that is held: by its island, its line or its model (Table 11.4; `paid`
carries the cause of a held one). -/
def State.accessCause (s : State) (x : Ctx) : List Nat :=
  if 2 ^ 64 ≤ x.paid then [x.paid / 2 ^ 64]
  else if (x.paid ≠ 0 ∨ isDev (firstRead x)) ∧ !s.pass x.stackAccts 64 then [0] else []

/-- Causes on which the tiles of a command wait: no cell whose clock runs admits the next one, or one in flight is not staged. -/
def State.tileCauses (s : State) (x : Ctx) : List Nat :=
  let cells := (List.range 16).filter fun n => s.clockOn n && s.cellPart n == x.part
  let p := x.part.getD 0
  (if (nextTile x).isSome && cells != [] && !cells.any (fun n => s.admits p n x) then [0] else []) ++
  (List.range 64).filterMap fun k =>
    match (s.arr k).fly with
    | some f => if f.cmd = some x.id && s.clockOn (k / 4) then s.arrStall k else none
    | none => none

/-- Rows a gather or an update waits for. -/
def State.rowsWaited (s : State) (x : Ctx) : Bool :=
  let gids := (s.emb.gathers.filter fun g => g.x.id == x.id).map (·.gid)
  (s.emb.reads.any fun r => match r.for_ with
    | .gather g _ => gids.contains g
    | .serve .. => false) ||
  s.emb.far.any fun o => o.atts.any fun a => match a with
    | .upd i _ _ => i == x.id
    | .row _ => false

/-- Causes on which sliced work waits: a unit its queue is held for, rows, or an account, else a turn on its engine. -/
def State.sliceCauses (s : State) (x : Ctx) (e : Engine) (total did : Nat) : List Nat :=
  let held (c : Nat) : Bool := (s.queue x.id.q).holds.any fun h => h.cause == c
  let emb : Bool := x.op / 16 == 3
  (if emb && held 3 then [7] else []) ++ (if emb && held 4 then [8] else []) ++ (if emb && s.rowsWaited x then [10] else []) ++
  (if x.op == 0x32 && decide (total ≤ did) && !s.rowsWaited x then [0] else []) ++
  (if emb && 0 < s.claimsOf x.id then [3] else []) ++
  (if decide (did < total) && !s.onEngine x.id && s.clockOn (engIsland e) then
    (if !s.pass (sliceNeed x e).1 (sliceNeed x e).2 then [0] else if emb then [] else [15]) else [])

/-- Causes on which a context waits that waits for something other than an engine. -/
def State.waitCauses (s : State) (x : Ctx) : List Nat :=
  match x.op with
  | 0x80 => if s.claimsOf x.id = 0 then [0] else [3]
  | 0x30 => [3]
  | 0x40 => [3]
  | 0x70 => if s.qst.update.isSome then [15] else [3]
  | 0x10 => [4]
  | 0x20 => [4]
  | 0x41 => [4]
  | 0x60 => [9]
  | 0x02 => [9]
  | 0x42 => [6]
  | _ => []

/-- Causes on which a SEQ_CHUNK not yet dispatched waits, whatever its WAIT flags say: its list, and its slots (R244, R250). -/
def State.chunkCauses (s : State) (x : Ctx) : List Nat :=
  match s.chunk? x.id with
  | none => s.accessCause x
  | some c =>
    match s.fam? c.ten c.fam with
    | none => []
    | some m =>
      let zs := c.ents.map fun e => m.slots.get e.1.stream
      (if !c.acquired || zs.any (fun z => z.claims.head? != some x.id) then [5] else []) ++
      (if c.acquired && zs.any (fun z => z.st == .pagingIn || z.st == .pagingOut) then [6] else [])

/-- The causes of Table 11.4 on which a context's work waits (R237). -/
def State.causes (s : State) (x : Ctx) : List Nat :=
  match x.phase with
  | .done => []
  | .fetched =>
    let before := earlier (s.qCtxs x.id.q) x
    let listed (y : Ctx) : Bool := (y.op != 0x41 || (s.chunk? y.id).isSome) && (y.op != 0x42 || (s.touch? y.id).isSome)
    if !(before.all fun y => decide (y.phase ≠ .fetched) || listed y) then []
    else if x.op = 0x41 then s.chunkCauses x
    else if x.op = 0x42 ∧ !listed x then s.accessCause x
    else []
  | .dispatched =>
    (match s.handleOf x with
    | some k => (match s.modelState x k with
      | .ready _ => []
      | _ => [4])
    | none => []) ++ s.accessCause x
  | .running =>
    (if 2 ^ 64 ≤ x.paid then [x.paid / 2 ^ 64] else []) ++
    match x.work with
    | .none => []
    | .tiles .. => s.tileCauses x
    | .units e total d _ _ _ => s.sliceCauses x e total d
    | .waits .. => s.waitCauses x

/-- The cause a stalled context counts under: the lowest-numbered. -/
def State.stallCause (s : State) (x : Ctx) : Option Nat := if s.cpRuns then (s.causes x).min? else none

end Sys2Proof.Machine
end

