-- ==== Sys2Proof/Machine/Fetch.lean ====
section
/-! DEFINITION. Fetching and dispatching packets (R42 to R47, R69, R93, R95, R314). -/

namespace Sys2Proof.Machine

/-! ### Step keys (R93) -/

/-- The horizon of a step without a deadline: that of its partition, or 10,000,000 ticks outside every partition (R75, R93). -/
def State.horizon (s : State) (p : Option Nat) : Nat :=
  match p with
  | some k => s.rnat .schedNodl k
  | none => 10000000

/-- Key of a step admitted now, and whether it has a deadline, from a relative deadline (0 none). -/
def State.relKey (s : State) (p : Option Nat) (rel : Nat) : W64 × Bool :=
  if rel ≠ 0 then (s.now + w64 rel, true)
  else if s.horizon p = 0xFFFFFFFF then (w64 (2 ^ 64 - 1), false)
  else (s.now + w64 (s.horizon p), false)

/-- Key of the step a STEP_BEGIN opens: absolute, relative, from Q_DEADLINE, or without deadline. -/
def State.beginKey (s : State) (x : Ctx) : W64 × Bool :=
  if bit (x.w 3) 1 then (x.a 4, true)
  else if x.w 4 = 0xFFFFFFFF then s.relKey x.part 0
  else if x.w 4 = 0 then s.relKey x.part (s.queue x.id.q).deadline.toNat
  else s.relKey x.part (x.w 4)

/-- A new step table entry. -/
def Step.fresh (x : Ctx) (explicit : Bool) : Step :=
  { q := x.id.q, fn := x.fn, part := x.part, explicit := explicit, stepId := if explicit then w32 (x.w 2) else 0
    rt := explicit && bit (x.w 3) 0, hasDl := false, admitted := false, key := w64 (2 ^ 64 - 1), admitAt := 0, epoch := x.epoch
    failHi := 0, failLo := 0, abortFrom := none, ended := none, exchFetched := false, exchRun := false, missRaised := false
    yoyo := none, stalls := List.replicate 16 0 }

/-- A step enters the table. -/
def State.addStep (s : State) (sid : Nat) (st : Step) : State :=
  s.withCp fun c => { c with steps := c.steps.set sid (some st), nextSid := max c.nextSid (sid + 1) }

/-- The implicit step of a command (R46): admitted as it is fetched, with Q_DEADLINE. -/
def State.implicitStep (s : State) (x : Ctx) : Step :=
  let k := s.relKey x.part (s.queue x.id.q).deadline.toNat
  { Step.fresh x false with key := k.1, hasDl := k.2, admitted := true, admitAt := s.now }

/-! ### Fetched packets (R44 to R46) -/

/-- The context of a packet at the queue's head. -/
def State.newCtx (s : State) (q : Nat) (words : List W32) (sid : Nat) : Ctx :=
  { id := ⟨q, (s.queue q).head⟩, fn := s.owner q, part := s.queuePart q, sid := sid, epoch := w32 (s.rnat .epoch), words := words
    phase := .fetched, status := 0, detail := 0, evt := false, fetchedAt := s.now, begunAt := s.now, work := .none
    feed := w32 (s.rnat .feed q) }

/-- The explicit step open at fetch on a queue. -/
def State.openStep (s : State) (q : Nat) : Option Step :=
  match (s.queue q).openSid with
  | some sid => s.step? sid
  | none => none

/-- A packet whose checks failed completes with what they say; one of a step a recovery has ended completes as that says (R314, item 4);
a SEQ_CHUNK or SEQ_TOUCH is checked against its family (R244, R246). -/
def State.settlePacket (s : State) (x : Ctx) (bad : Option (Nat × W32)) (ended : Option (Nat × W32)) (h : HostData) : State :=
  match bad, ended with
  | some (st, d), _ => s.finish x.id st d
  | none, some (st, d) => State.drain 65 (endMark s st d x) x.id.q
  | none, none => if x.op = 0x41 ∨ x.op = 0x42 then s.listChecks x.id.q h 65 else s

/-- A RUNNING queue with 64 packets in flight is held, cause 1 (R48, Table 02.14). -/
def State.holdIfFull (s : State) (q : Nat) : State :=
  if (s.queue q).mode = .running ∧ 64 ≤ (s.queue q).inflight then s.hold q 1 else s

/-- One packet takes a context, is checked against the step structure at fetch, and joins its step (R44, R45, R46). -/
def State.acceptPacket (s : State) (q : Nat) (words : List W32) (h : HostData) : State :=
  let opened := s.openStep q
  let x0 := s.newCtx q words s.cp.nextSid
  let bad := s.packetCheck x0 opened
  let ok := bad.isNone
  let begins := x0.op == 1 && ok
  let sid : Nat := if begins then s.cp.nextSid else ((s.queue q).openSid).getD s.cp.nextSid
  let x : Ctx := { x0 with sid := sid }
  let s1 : State :=
    if begins then s.addStep sid (Step.fresh x true)
    else if opened.isSome then (if x.op = 0x60 ∧ ok then s.updStep sid fun k => { k with exchFetched := true } else s)
    else s.addStep sid (s.implicitStep x)
  let s2 := (s1.withCp fun c => { c with ctxs := c.ctxs ++ [x] }).updQueue q fun Q =>
    { Q with
      head := Q.head + 1
      openSid := if begins then some sid else if x.op = 2 ∧ ok then none else Q.openSid }
  (s2.settlePacket x bad ((opened.bind fun k => k.ended)) h).holdIfFull q

/-- A packet may still be fetched when its read returns: the queue runs, its owner runs work (R51), and a DRAINING partition takes only
what belongs to an open step (R69).  DESIGN CHOICE (log 59): PAUSE and a hold stop new reads, and the packets of a read already
outstanding are still taken in when it returns. -/
def State.takes (s : State) (q : Nat) : Bool :=
  decide ((s.queue q).mode = .running) && s.ownerBound q &&
  (match s.queuePart q with
    | some p => (s.pstate p != 3 && s.pstate p != 4) && (s.pstate p != 2 || (s.queue q).openSid.isSome)
    | none => true)

/-- The packets of a returned read, in count order; those that may no longer be fetched are left, and read again later. -/
def State.acceptAll (s : State) (q : Nat) (h : HostData) : List (List W32) → State
  | [] => s
  | w :: l => if s.takes q then State.acceptAll (s.acceptPacket q w h) q h l else (s.updQueue q fun Q => { Q with reads := [] }).release

/-- The 16 words of a packet. -/
def packetWords (b : List W8) : List W32 := (List.range 16).map fun i => w32 (natAt b (4 * i) 4)

/-- Address of the ring slot of a count (R23, R25). -/
def Queue.slotAddr (Q : Queue) (c : W32) : W64 := addrAdd Q.ringBase (64 * (c.toNat % Q.entries))

/-- A ring read that fails (R42, R224, R354): the queue is FAULTED with cause 4 where its page has left the owner's map or is sealed, else
with cause 1. -/
def State.readFailed (s : State) (q : Nat) (a : W64) (e : Fail) : State :=
  match e with
  | .range => s.faultQueue q 4 a
  | .held _ => s
  | .poison l =>
    ((if s.mem.tagErrs.contains (l / 32768) then s.logMem l 14 0 else s).radd32 .poisonReads (chanOf (l * 64)) 0 1).faultQueue q 1 a
  | .host => s.logPcie.faultQueue q 1 a

/-- FETCH_READ_RETURN (R43, R44): the oldest read outstanding on a queue returns.  With `par` the parity of the queue range that gives the read its
function fails: the access is refused as a poisoned read, and logged with class 14 (R309). -/
def State.fetchReturn (s : State) (q : Nat) (par : Bool) (h : HostData) : State :=
  if s.cp.halted then s
  else
    let Q := s.queue q
    match Q.reads with
    | [] => s
    | r :: rest =>
      let a := Q.slotAddr r.first
      let fn := s.owner q
      let s := s.meetOp fn a (64 * r.n)
      let got : Except Fail (List W8) :=
        if isDev a && s.extSealed fn (offOf a) (64 * r.n) then .error .range else s.opRead fn h a (64 * r.n)
      if par then (s.logFault { cls := 14, island := 29, action := 0, queue := q, tenant := whoOf fn }).faultQueue q 1 a
      else match got with
      | .error e => s.readFailed q a e
      | .ok b =>
        (s.updQueue q fun Q => { Q with reads := rest }).acceptAll q h ((List.range r.n).map fun i => packetWords (sliceB b (64 * i) 64))

/-! ### Dispatch (R47) -/

/-- STEP_ABORT refuses a command: a command of its step fetched before it has failed (R47, item 7). -/
def State.abortedFor (s : State) (x : Ctx) : Bool :=
  x.op != 2 && (match s.step? x.sid with
    | some st => (match st.abortFrom with
      | some c => c != x.id.c && decide ((x.id.c - c).toNat < 2 ^ 31)
      | none => false)
    | none => false)

/-- COMMAND_DISPATCH (R47): the next command of a queue is dispatched when its conditions hold, and takes then what its rules take at dispatch.
A SEQ_CHUNK or SEQ_TOUCH whose list waited on an account is checked first (R81, R244). -/
def State.dispatchNext (s : State) (q : Nat) : State :=
  if !s.cpRuns then s
  else match s.nextFetched q with
    | none => s
    | some x =>
      let before := earlier (s.qCtxs q) x
      if fenceAhead before || beginAhead before then s
      else if s.abortedFor x then s.finish x.id stRefused 0
      else if !waitsMet x before then s
      else if (x.op = 0x41 ∧ s.chunk? x.id = none) ∨ (x.op = 0x42 ∧ s.touch? x.id = none) then s.listChecks q [] 65
      else if x.op = 0x41 ∧ !s.seqReady x.id then s
      else (s.updCtx x.id fun y => { y with phase := .dispatched, begunAt := s.now }).onDispatch x

/-! ### Steps (R35, R46, R47, R93, R163, R239) -/

/-- DEADLINE_MISS of a step (R239): once, when the time base has reached the key of a real-time step with a deadline whose STEP_END
record is not yet written. -/
def State.deadlineMiss (s : State) (sid : Nat) : State :=
  match s.step? sid with
  | none => s
  | some st =>
    if !(st.explicit && st.rt && st.hasDl && st.admitted && !st.missRaised && st.ended.isNone && s.passed st.key) then s
    else
      let open_ := (s.stepCtxs sid).filter fun x => decide (x.phase ≠ .done)
      let first := open_.head?
      let why := match first with
        | some x => (match s.stallCause x with
          | some c => c + 16
          | none => 0)
        | none => 0
      let sum := st.stalls.foldl (fun n v => n + v.toNat) 0
      let s1 := s.updStep sid fun k => { k with missRaised := true }
      let s2 := s1.event st.fn
        { code := 0x1101, island := 29, queue := st.q, stepId := st.stepId
          d0 := why + sat 65535 open_.length * 65536
          d1 := match first with
            | some x => x.id.c.toNat
            | none => 0
          d2 := sat (2 ^ 32 - 1) sum }
      match tenantOf st.fn with
      | some t => s2.radd32 .rtMisses t 0 1
      | none => s2

/-- STEP_BEGIN (R33, R47, R93): the step is admitted, its key fixed, and the command completes. -/
def State.stepBegin (s : State) (x : Ctx) : State :=
  let k := s.beginKey x
  let s1 := s.updStep x.sid fun st =>
    { st with admitted := true, key := k.1, hasDl := k.2, admitAt := s.now, epoch := w32 (s.rnat .epoch) }
  (s1.finish x.id stDone (if k.2 then w32 k.1.toNat else 0xFFFFFFFF)).deadlineMiss x.sid

/-- STEP_END (R35, R47, R163): once every other command of its step has completed it carries what the step's requests still need, and
completes. -/
def State.stepEnd (s : State) (x : Ctx) (h : HostData) : State :=
  if (s.stepCtxs x.sid).any (fun y => decide (y.id ≠ x.id) && decide (y.phase ≠ .done)) then s
  else match s.step? x.sid with
    | none => s.finish x.id stDone 0
    | some st =>
      let rs := s.emb.reqs.filter fun r => r.sid = x.sid
      if rs ≠ [] ∧ !st.exchRun then
        let gs := (s.emb.gathers.filter fun g => g.x.sid = x.sid).length
        (s.eventOf x.id x.fn { code := 0x0802, island := 29, queue := x.id.q, stepId := st.stepId, d0 := gs, d1 := rs.length }).exchangeStart
          x true h
      else s.finish x.id stDone st.endDetail

end Sys2Proof.Machine
end

