-- ==== Sys2Proof/Machine/Period.lean ====
section
/-! DEFINITION. Time: what passes with the ticks of the device time base, and the period boundary (R5, R49, R73, R78, R79, R101, R237, R238). -/

namespace Sys2Proof.Machine

/-! ### What accumulates with time -/

/-- BP_TICKS (R49): the ticks that a queue of a partition spends HELD, for each of its holds. -/
def State.passHolds (s : State) (n : Nat) : State :=
  s.cp.queues.ents.foldl (fun t e =>
    match t.queuePart e.1 with
    | some p => if s.qState e.1 = 3 then e.2.holds.foldl (fun u h => u.radd64 .bpTicks p h.cause n) t else t
    | none => t) s

/-- The arrays: a flight runs while its clock does (R79, R101), and the ticks of a stopped cell are counted (Table 05.4). -/
def State.passArrays (s : State) (n : Nat) : State :=
  let s1 := (List.range 16).foldl (fun t c => if t.clockOn c then t else t.radd64 .stopTicks c 0 n) s
  (List.range 64).foldl (fun t k =>
    match (t.arr k).fly with
    | some f =>
      if t.clockOn (k / 4) then
        (t.updArr k fun a => { a with fly := some { f with ran := f.ran + n } }).radd64 .arrayBusy (k / 4) (k % 4) n
      else t
    | none => t) s1

/-- Whole cell cycles that end in the next `n` ticks at a frequency in MHz. -/
def State.cyclesIn (s : State) (f n : Nat) : Nat := (s.now.toNat + n) * f / 1000 - s.now.toNat * f / 1000

/-- A stream's stall ticks (Table 11.3). -/
def Stream.pass (n : Nat) (why : Stream → Option Nat) (st : Stream) : Stream :=
  if (why st).isSome then { st with ticks := st.ticks + n } else st

/-- The streams of the tiles of an array: each counts the ticks it has stalled (R236). -/
def State.passStreams (s : State) (n : Nat) : State :=
  (List.range 64).foldl (fun t k =>
    let a := s.arr k
    match a.fly with
    | none => t
    | some f =>
      if !s.clockOn (k / 4) then t
      else
        let fly := match f.cmd.bind s.ctx? with
          | some x => f.streams.map (Stream.pass n (s.flyCause x f))
          | none => f.streams
        let look := match a.look.bind fun l => s.ctx? l.1 with
          | some x => a.lookStreams.map (Stream.pass n (s.lookCause k x))
          | none => a.lookStreams
        if fly = f.streams ∧ look = a.lookStreams then t
        else t.updArr k fun b => { b with fly := b.fly.map fun g => { g with streams := fly }, lookStreams := look }) s

/-- CELL.STALL (R237, R238): the cell cycles in which an array holds a tile that cannot advance. -/
def State.passArrStalls (s : State) (n : Nat) : State :=
  (List.range 64).foldl (fun t k =>
    if s.clockOn (k / 4) then
      match s.arrStall k with
      | some c => t.radd64 .cStall (k / 4) c (s.cyclesIn (s.mhz (k / 4)) n)
      | none => t
    else t) s

/-- The stall ticks of a context: of its partition, its tenant and its step (R238). -/
def State.passStall (s : State) (n : Nat) (x : Ctx) : State :=
  match s.stallCause x with
  | none => s
  | some c =>
    let s1 := match x.part with
      | some p => s.radd64 .pStall p c n
      | none => s
    let s2 := match tenantOf x.fn with
      | some t => s1.radd64 .tStall t c n
      | none => s1
    s2.updStep x.sid fun k => { k with stalls := k.stalls.set c (k.stalls.getD c 0 + w64 n) }

/-- The decode engine's measures of a period (R262): the ticks it spends on a partition's commands, and the ENGINE stall ticks of that
partition's contexts on it. -/
def State.passDecode (s : State) (n : Nat) : State :=
  let s1 := match (s.eng .decode).job with
    | some id => (match (s.ctx? id).bind fun x => x.part with
      | some p => if s.clockOn 32 then s.withInt fun i => { i with busy := i.busy.upd p (· + n) } else s
      | none => s)
    | _ => s
  s.cp.ctxs.foldl (fun t x =>
    match x.work, x.part with
    | .units .decode _ _ _ _ _, some p =>
      if s.stallCause x = some 15 then t.withInt fun i => { i with wait := i.wait.upd p (· + n) } else t
    | _, _ => t) s1

/-- `n` ticks pass, none of them a period boundary except the last: everything that counts with time counts, supplies move, and partitions
that were SWITCHING are ACTIVE or FREE again (R71). -/
def State.elapse (s : State) (n : Nat) : State :=
  let s1 := (((s.trackWaits.passHolds n).passArrays n).passArrStalls n).passStreams n
  let s2 := (s1.cp.ctxs.foldl (fun t x => t.passStall n x) s1).passDecode n
  ({ s2.endSwitching with now := s2.now + w64 n }).slewAll

/-! ### The period boundary (R73) -/

/-- TEN.ACCT_BALANCE: the balance each tenant's accounts begin the period with (Table 04.5). -/
def State.noteBalances (s : State) : State :=
  (List.range 64).foldl (fun t k => (List.range 4).foldl (fun u j => u.rset ⟨.tenBalView, k, j⟩ (s.rget ⟨.tenBal, k, j⟩)) t) s

/-- What happens at a period boundary, the present instant: the epoch, the accounts, the layer records, then the loops (R68, R73, R78, R88,
R140, R168, R174, R190, R226, R229, R262, R338). -/
def State.boundary (s : State) (ts : List ChanTemp) : State :=
  let s1 := s.noteFinals.withCp fun c => { c with evWritten := .of 0, exhSeen := [], periodStart := s.now }
  let s2 := (allAccts.foldl State.refill s1.epochBoundary).noteBalances
  let s3 := s2.applyLayers.withToy fun y => { y with boundaries := y.boundaries + 1 }
  (((((((s3.embBoundary).linkBoundary).splitBoundary).memBoundary ts).stackHeatAll).seqPump).servesPump).xfersPump

/-- The device keeps periods: it has reached READY and has not tripped (R73, R339). -/
def State.periods (s : State) : Bool := s.win.ready && !s.pwr.tripped

/-- Ticks to the next multiple of `m`, at least 1. -/
def State.ticksTo (s : State) (m : Nat) : Nat := m - s.now.toNat % m

/-- Time runs on by `n` ticks to an instant that a period boundary may fall on.  The temperature sensors are read whether or not the device keeps
periods (R18, R328). -/
def State.runTo (s : State) (n : Nat) (ts : List ChanTemp) : State :=
  let t := s.elapse n
  if t.now.toNat % 100000 ≠ 0 then t else if t.periods then t.boundary ts else ts.foldl State.chanTemp t

/-- PERIOD_BOUNDARY (R73): time runs on to the next multiple of 100,000, with the readings the boundary samples.  The Safety Island recounts every
account's charges; a recount that disagrees is logged with class 14 (R305, R309). -/
def State.periodBoundary (s : State) (ts : List ChanTemp) (disagree : Bool) : State :=
  let t := s.runTo (s.ticksTo 100000) ts
  if disagree && s.periods then t.logFault { cls := 14, island := 33, action := 0 } else t

/-- CONTROL_INTERVAL (R329): time runs on to the next multiple of 10,000, a boundary that falls there first, and the power controller acts, a trip of
the other islands or not (R18). -/
def State.controlRow (s : State) (mw : Nat) (rs : List IslRead) (ts : List ChanTemp) : State :=
  (s.runTo (s.ticksTo 10000) ts).controlInterval mw rs

/-- PTM_DIALOG: a dialog that steps the time base onto a period boundary reaches that instant (R73, R357); the boundaries that a step passes over
are no instants of the time base, and nothing happens at them (assumption log 68). -/
def State.ptmRow (s : State) (master : Option W64) : State :=
  let t := s.ptmDialog master
  if t.now ≠ s.now ∧ t.periods ∧ t.now.toNat % 100000 = 0 then t.boundary [] else t

/-- One tick. -/
def State.tick (s : State) : State := s.runTo 1 []

end Sys2Proof.Machine
end

