-- ==== Sys2Proof/WellFormed.lean ====
section
/-! DEFINITION. Well-formed commands: every unit a command's operands name is one the device has (Tables 01.1 to 01.3).  A command that
names another unit cannot reach the device. -/

namespace Sys2Proof

/-- One of the 16,384 queues (R20). -/
def queueOk (q : Nat) : Bool := decide (q < 16384)

/-- A queue and a packet's 32-bit count (R24). -/
def packetOk (q c : Nat) : Bool := queueOk q && decide (c < 2 ^ 32)

/-- The PF, or one of 64 VFs. -/
def fnOk (fn : Nat) : Bool := decide (fn ≤ 64)

/-- A tenant, whose VF is that of its number. -/
def tenantOk (t : Nat) : Bool := decide (t < 64)

/-- A partition. -/
def partOk (p : Nat) : Bool := decide (p < 16)

/-- A compute cell. -/
def cellOk (n : Nat) : Bool := decide (n < 16)

/-- A matrix array, four to a cell. -/
def arrayOk (k : Nat) : Bool := decide (k < 64)

/-- A Nimeg link. -/
def linkOk (l : Nat) : Bool := decide (l < 16)

/-- A memory channel. -/
def chanOk (c : Nat) : Bool := decide (c < 64)

/-- A memory stack. -/
def stackOk (n : Nat) : Bool := decide (n < 16)

/-- A MEM island. -/
def memIslOk (m : Nat) : Bool := decide (m < 8)

/-- A 64-byte line of stacked memory. -/
def lineOk (l : Nat) : Bool := decide (l < 64 * 768 * 32768)

/-- An NVMe drive. -/
def driveOk (d : Nat) : Bool := decide (d < 8)

/-- A Quisto unit. -/
def qUnitOk (u : Nat) : Bool := decide (u < 2)

/-- A clock island whose supply the device watches: every one but the Safety Island (Table 15.1). -/
def islandOk (k : Nat) : Bool := decide (k < 33)

/-- A vector of a function (R85): 64 of the PF, 32 of a VF. -/
def vectorOk (fn v : Nat) : Bool := fnOk fn && decide (v < if fn = 0 then 64 else 32)

/-- An engine the device has. -/
def engineOk : Engine → Bool
  | .memCopy m => memIslOk m
  | .memZero m => memIslOk m
  | .gather m => memIslOk m
  | .decode => true
  | .frame => true
  | .locale => true
  | .quisto u => qUnitOk u
  | .sealPort u => decide (u < 2)

/-- A read of the host link that the device may have outstanding. -/
def ctoOk : CtoRead → Bool
  | .ring q => queueOk q
  | .far _ => true
  | .page _ => true

/-- Temperature readings of channels the device has. -/
def tempsOk (l : List ChanTemp) : Bool := l.all fun r => chanOk r.chan

/-- Readings of islands the loop acts on. -/
def readsOk (l : List IslRead) : Bool := l.all fun r => islandOk r.isl

/-- The command's operands name units the device has. -/
def Instr.wellFormed : Instr → Bool
  | .NOP q c _ => packetOk q c
  | .STEP_BEGIN q c _ => packetOk q c
  | .STEP_END q c _ => packetOk q c
  | .FENCE_SIGNAL q c _ => packetOk q c
  | .FENCE_WAIT q c _ => packetOk q c
  | .MODEL_LOAD q c _ => packetOk q c
  | .MODEL_PIN q c _ => packetOk q c
  | .MODEL_EVICT q c _ => packetOk q c
  | .MATMUL q c _ => packetOk q c
  | .GATE_ONLY q c _ => packetOk q c
  | .LAYER_SET q c _ => packetOk q c
  | .LAYER_READ q c _ => packetOk q c
  | .TABLE_DEFINE q c _ => packetOk q c
  | .TABLE_RETIRE q c _ => packetOk q c
  | .GATHER_POOL q c _ => packetOk q c
  | .ROW_UPDATE q c _ => packetOk q c
  | .TABLE_LOAD q c _ => packetOk q c
  | .TABLE_FLUSH q c _ => packetOk q c
  | .TABLE_STATS q c _ => packetOk q c
  | .SEQ_DEFINE q c _ => packetOk q c
  | .SEQ_CHUNK q c _ => packetOk q c
  | .SEQ_TOUCH q c _ => packetOk q c
  | .SEQ_RETIRE q c _ => packetOk q c
  | .INTAKE_DECODE q c _ => packetOk q c
  | .RNG_FILL q c _ => packetOk q c
  | .FRAME_CONVERT q c _ => packetOk q c
  | .LOCALE_PILLARS q c _ => packetOk q c
  | .RULEBOOK_BUILD q c _ => packetOk q c
  | .LOCALE_GATHER q c _ => packetOk q c
  | .EXCHANGE q c _ => packetOk q c
  | .SEAL_ALLOC q c _ => packetOk q c
  | .SEAL_FREE q c _ => packetOk q c
  | .QPARAM_SET q c _ => packetOk q c
  | .GATE_BATCH q c _ => packetOk q c
  | .BASE_CONVERT q c _ => packetOk q c
  | .SHARE_OP q c _ => packetOk q c
  | .TRIPLE_GEN q c _ => packetOk q c
  | .CURVE_OP q c _ => packetOk q c
  | .HASH_TO_CURVE q c _ => packetOk q c
  | .QRNG_FILL q c _ => packetOk q c
  | .KEY_AGREE q c _ => packetOk q c
  | .SHARE_EXPORT q c _ => packetOk q c
  | .SHARE_IMPORT q c _ => packetOk q c
  | .KEY_UPDATE q c _ => packetOk q c
  | .PAGE_ALLOC q c _ => packetOk q c
  | .PAGE_FREE q c _ => packetOk q c
  | .MEM_ZERO q c _ => packetOk q c
  | .MEM_COPY q c _ => packetOk q c
  | .EPOCH_COMMIT q c _ => packetOk q c
  | .EPOCH_HOLD_LIMIT_EXPIRY => true
  | .DOORBELL fn _ _ _ => fnOk fn
  | .QUEUE_ENABLE fn q => fnOk fn && queueOk q
  | .QUEUE_DISABLE fn q => fnOk fn && queueOk q
  | .QUEUE_PAUSE fn q _ => fnOk fn && queueOk q
  | .QUEUE_RESTART fn q => fnOk fn && queueOk q
  | .QUEUE_RANGE_WRITE t _ => tenantOk t
  | .EVQ_ENABLE fn => fnOk fn
  | .EVQ_HEAD_WRITE fn _ => fnOk fn
  | .EPOCH_OPEN => true
  | .EPOCH_ABANDON => true
  | .RWE_WRITE _ _ _ => true
  | .REGISTER_WRITE fn _ _ _ => fnOk fn
  | .REGISTER_READ_LATCH fn _ _ => fnOk fn
  | .SCHED_CLR_MAX p => partOk p
  | .ARRAY_FENCE_CLEAR n _ => cellOk n
  | .PART_RESET_WRITE _ => true
  | .PARTITION_RESET_COMPLETE p => partOk p
  | .SOFTWARE_RESET _ => true
  | .SVN_COMMIT _ => true
  | .LINK_ENABLE l => linkOk l
  | .LINK_DISABLE l _ => linkOk l
  | .LINK_DEVICE_WRITE _ => true
  | .NVME_AREA_ENABLE _ => true
  | .NVME_DRIVE_ENABLE d _ => driveOk d
  | .NVME_DRIVE_ONLINE d _ => driveOk d
  | .CAP_WRITE _ _ => true
  | .CAP_EFFECTIVE => true
  | .VF_ENABLE_CLEAR => true
  | .MSIX_UNMASK fn v => vectorOk fn v
  | .MSIX_SEND fn v => vectorOk fn v
  | .FETCH_TURN => true
  | .FETCH_READ_RETURN q _ => queueOk q
  | .COMMAND_DISPATCH q => queueOk q
  | .BACKPRESSURE_THRESHOLD q _ => queueOk q
  | .PERIOD_BOUNDARY b => tempsOk b.temps
  | .SKETCH_DECAY p => partOk p
  | .TOY_USE_DECAY => true
  | .TILE_DISPATCH k _ => arrayOk k
  | .TILE_COMMIT k _ _ => arrayOk k
  | .TILE_WATCHDOG_EXPIRY k => arrayOk k
  | .SLICE_END e _ _ _ => engineOk e
  | .SELFTEST_ROUND_OVERRUN => true
  | .FEEDER_REGION_FILLED k _ _ => arrayOk k
  | .DEADLINE_MISS _ => true
  | .ROW_READ_COMPLETE _ _ _ => true
  | .FAR_READ_COMPLETE _ _ _ => true
  | .FAR_WRITEBACK_COMPLETE _ _ => true
  | .FAR_TIMEOUT _ _ => true
  | .NVME_COMPLETION d y _ => driveOk d && decide (1 ≤ y) && decide (y ≤ 64)
  | .BLOCK_MOVE_COPY_DONE _ => true
  | .PLACEMENT_WINDOW_END => true
  | .REPLICA_EXPIRY => true
  | .SEQ_SLOT_ACQUIRE q c => packetOk q c
  | .SLOT_PAGE_IN_DONE _ _ => true
  | .SLOT_PAGE_OUT_DONE _ _ => true
  | .ZERO_ENGINE_PAGE_DONE m => memIslOk m
  | .TOYCHEST_SLOT_ZEROED k => decide (k < 256)
  | .MEM_PARITY_RETRY line lane _ _ _ => lineOk line && decide (lane < 64)
  | .LANE_REPAIR_DONE c => chanOk c
  | .SCRUB_READ c _ => chanOk c
  | .BAR4_ACCESS fn _ _ _ _ => fnOk fn
  | .NVME_AREA_ACCESS rid _ _ _ => decide (rid < 65536)
  | .DATA_FLIT_RX l _ _ => linkOk l
  | .CONTROL_FLIT_RX l _ _ => linkOk l
  | .FRAME_TRANSMIT l => linkOk l
  | .CONTROL_SLOT l => linkOk l
  | .LINK_RETRY_LIMIT l _ => linkOk l
  | .LINK_CONTROL_LOSS l _ => linkOk l
  | .LINK_LOCK_LOSS l _ => linkOk l
  | .LINK_TRAINING_COMPLETE l _ => linkOk l
  | .LINK_REEXAMINE l _ => linkOk l
  | .EQ_INTERVAL_END l => linkOk l
  | .EXCHANGE_TIMEOUT _ _ => true
  | .CONTROL_INTERVAL _ rs temps => readsOk rs && tempsOk temps
  | .CAP_ESCALATION => true
  | .CAP_UNMET_CHANGE => true
  | .THROTTLE_DEMAND_DECAY k src => islandOk k && decide (src < 5)
  | .THROTTLE_STOP_WINDOW_END k => islandOk k
  | .STACK_HEAT_ESCALATE n => stackOk n
  | .BRAKE_EDGE _ => true
  | .THERMAL_TRIP => true
  | .DROOP_DETECT k => islandOk k
  | .DROOP_RESTART k _ => islandOk k
  | .CLOCK_VOLTAGE_FAULT k => islandOk k
  | .CLOCK_FAULT_RESTART k => islandOk k
  | .LOCKSTEP_MISMATCH => true
  | .ENTROPY_HEALTH_FAIL u test => qUnitOk u && decide (1 ≤ test) && decide (test ≤ 3)
  | .ENTROPY_RESTART u _ => qUnitOk u
  | .DRBG_RESEED u => qUnitOk u
  | .PTM_DIALOG _ => true
  | .HOST_LINK_CHANGE _ _ _ => true
  | .PCIE_ERROR_RX fn _ => fnOk fn
  | .POWER_ON_RESET => true
  | .CONVENTIONAL_RESET => true
  | .MANAGEMENT_RESET _ => true
  | .TEST_RESET _ => true
  | .TAP_INSTRUCTION _ => true
  | .FLR_PF => true
  | .FLR_VF t => tenantOk t
  | .FUSE_READ _ => true
  | .SAFE_START _ => true
  | .SECURE_BOOT => true
  | .STACK_TRAIN bad => (match bad with
    | some c => chanOk c
    | none => true)
  | .LINK_TRAIN good => good.all fun e => linkOk e.1
  | .SELF_TEST bad _ _ => bad.all arrayOk
  | .READY => true
  | .MCTP_SET_ENDPOINT_ID v => decide (v < 256)
  | .PLDM_SENSOR_READ _ => true
  | .MGMT_DEVNUM_WRITE _ => true
  | .FAULT_LOG_READ i => decide (i < 256)
  | .FIRMWARE_UPDATE_TRANSFER _ _ _ => true
  | .APPLY_COMPLETE => true
  | .ACTIVATE_FIRMWARE => true
  | .FENCE_WAIT_TIMEOUT q c => packetOk q c
  | .COMPLETION_TIMEOUT t _ => ctoOk t
  | .KEY_UPDATE_COMPLETE _ => true
  | .CONFIGURATION_CRC_CHECK _ => true

end Sys2Proof
end

