-- ==== Sys2Proof/Machine/Rows.lean ====
section
/-! DEFINITION. What the commands' meanings share: the answer of a command, the packets in flight that an opcode's row acts on, and the
conditions under which a row reaches its part of the device. -/

namespace Sys2Proof.Machine

/-- The outcome of a command given at `s` that leads to `t`: the next state, with the queue of waiting commands as it was, for
only `step` takes from it; unless the operands name a unit the device does not have. -/
def answer (ok : Bool) (s t : State) : Host.Outcome State Fault Refusal :=
  if ok then .next { t with pending := s.pending } else .fault .noSuchUnit

/-- Identity of the command with count `c` of queue `q` (R45). -/
def cmdId (q c : Nat) : CtxId := ⟨q, w32 c⟩

/-- A command waits for Toychest slots, or copies a model in, on its own behalf or before its own work (R58, R60). -/
def Ctx.loading (x : Ctx) : Bool :=
  match x.work with
  | .none => false
  | _ => true

/-- The row of an opcode acts on the command of that identity (R47): a dispatched one begins; one that waits, or has begun before, is
looked at again.  While the CP does not run, and where no such command of that opcode is in flight, nothing happens. -/
def State.runCmd (s : State) (op q c : Nat) (start again : State → Ctx → State) : State :=
  if !s.cpRuns then s
  else match s.ctx? (cmdId q c) with
    | none => s
    | some x =>
      if x.op ≠ op then s
      else match x.phase with
        | .dispatched => if x.loading then s.toyPump else start s x
        | .running => again s x
        | _ => s

/-- Nothing more happens to a command in progress before its next event. -/
def keep (s : State) (_ : Ctx) : State := s

/-- A command that waits for a condition of its own is looked at again. -/
def ifWaits (f : State → Ctx → State) (s : State) (x : Ctx) : State :=
  match x.work with
  | .waits .. => f s x
  | _ => s

/-- A register write of the host reaches the device (R343, R383). -/
def State.fromHost (s : State) (fn : Nat) (f : State → State) : State := if s.barUp fn then f s else s

/-- A configuration request of the host reaches the device, or is completed with Request Retry Status (R343). -/
def State.fromConfig (s : State) (fn : Nat) (f : State → State) : State := if s.cfgUp fn then f s else s.cfgRetry fn

/-- Something happens only while the clock of an island runs (R326, R330). -/
def State.onIsland (s : State) (k : Nat) (f : State → State) : State := if s.clockOn k then f s else s

/-- Something the CP does: it runs. -/
def State.onCp (s : State) (f : State → State) : State := if s.cpRuns then f s else s

end Sys2Proof.Machine
end

