-- ==== Sys2Proof/Machine/RowsEngine.lean ====
section
/-! DEFINITION. The rows of the device's own events: fetch and dispatch, the period, tiles and slices, tables, sequences, memory, links. -/

namespace Sys2Proof.Machine

/-- A row read completes: errors that lines have taken on, what its lines meet of them (R222), the row, and the services that waited for it. -/
def State.rowReadRow (s0 : State) (k : Nat) (es : List Hit) (h : HostData) : State :=
  let s := s0.strike es
  match s.emb.reads.find? fun r => r.k = k ∧ !r.far with
  | none => s
  | some r => match s.table? r.ten r.tab with
    | none => s.rowReadComplete k h
    | some sh =>
      let t := match r.repl, sh.loc (r.row / sh.d.rpb) with
        | none, some l => s.meetPhys (4096 * l + r.row % sh.d.rpb * sh.d.pitch) sh.d.pitch
        | _, _ => s
      ((t.rowReadComplete k h).servesPump).exchangesPump h

/-- The zero engine of an island finishes a page (R216); a command whose last claimed page it was goes on. -/
def State.zeroOne (s : State) (m : Nat) : State :=
  match s.zeroPage m with
  | (t, none) => t
  | (t, some id) => match t.ctx? id with
    | none => t
    | some x =>
      if x.op = 0x80 then t.allocZeroed x
      else if x.op = 0x30 then t.tableReady x
      else if x.op = 0x40 then t.famReady x
      else t

/-- A page of the dirty list is a background slice of its island's zero engine (R108, Table 05.7). -/
def State.zeroRow (s : State) (m : Nat) : State := if s.bgWaits (.memZero m) then s.bgSlice (.memZero m) fun t => t.zeroOne m else s

/-- A block move is a background slice of the copy engine of its source's island (R108, Table 05.7). -/
def State.moveRow (s : State) (k : Nat) : State :=
  match s.emb.moves.find? fun m => m.k = k with
  | some m => s.onIsland (16 + pageIsland (m.src / 512)) fun t => t.bgSlice (.memCopy (pageIsland (m.src / 512))) fun u => u.blockMoveCopyDone k
  | none => s

/-- FETCH_TURN (R43). -/
def execFetchTurn (s : State) : Host.Outcome State Fault Refusal :=
  answer true s (s.onCp State.fetchTurn)

/-- FETCH_READ_RETURN (R44 to R46). -/
def execFetchReadReturn (q : Nat) (r : RingReturn) (s : State) : Host.Outcome State Fault Refusal :=
  answer (queueOk q) s (s.onCp fun t => t.fetchReturn q r.par r.data)

/-- COMMAND_DISPATCH (R47). -/
def execCommandDispatch (q : Nat) (s : State) : Host.Outcome State Fault Refusal :=
  answer (queueOk q) s (s.dispatchNext q)

/-- BACKPRESSURE_THRESHOLD (R49). -/
def execBackpressureThreshold (q cause : Nat) (s : State) : Host.Outcome State Fault Refusal :=
  answer (queueOk q) s (s.onCp fun t => t.backpressure q cause)

/-- PERIOD_BOUNDARY (R73). -/
def execPeriodBoundary (b : BoundaryIn) (s : State) : Host.Outcome State Fault Refusal :=
  answer (tempsOk b.temps) s (s.periodBoundary b.temps b.disagree)

/-- SKETCH_DECAY (R166). -/
def execSketchDecay (p : Nat) (s : State) : Host.Outcome State Fault Refusal :=
  answer (partOk p) s (s.sketchDecay p)

/-- TOY_USE_DECAY (R59). -/
def execToyUseDecay (s : State) : Host.Outcome State Fault Refusal :=
  answer true s (s.toyDecay)

/-- TILE_DISPATCH (R97). -/
def execTileDispatch (k : Nat) (h : HostData) (s : State) : Host.Outcome State Fault Refusal :=
  answer (arrayOk k) s (s.tileDispatch k h)

/-- TILE_COMMIT (R100, R102). -/
def execTileCommit (k : Nat) (er : TileErr) (h : HostData) (s : State) : Host.Outcome State Fault Refusal :=
  answer (arrayOk k) s (s.tileCommit k er h)

/-- TILE_WATCHDOG_EXPIRY (R101). -/
def execTileWatchdogExpiry (k : Nat) (s : State) : Host.Outcome State Fault Refusal :=
  answer (arrayOk k) s (s.watchdog k)

/-- SLICE_END (R108, R109). -/
def execSliceEnd (e : Engine) (n : Nat) (ok : Bool) (h : HostData) (s : State) : Host.Outcome State Fault Refusal :=
  answer (engineOk e) s (s.sliceEnd e n ok h)

/-- SELFTEST_ROUND_OVERRUN (R84). -/
def execSelftestRoundOverrun (s : State) : Host.Outcome State Fault Refusal :=
  answer true s (if s.periods then s.roundOverrun else s)

/-- FEEDER_REGION_FILLED (R231, R233). -/
def execFeederRegionFilled (k : Nat) (es : List Hit) (h : HostData) (s : State) : Host.Outcome State Fault Refusal :=
  answer (arrayOk k) s (s.onIsland (k / 4) fun t => t.feederFilled k es h)

/-- DEADLINE_MISS (R239). -/
def execDeadlineMiss (sid : Nat) (s : State) : Host.Outcome State Fault Refusal :=
  answer true s (s.onCp fun t => t.deadlineMiss sid)

/-- ROW_READ_COMPLETE (R169). -/
def execRowReadComplete (k : Nat) (es : List Hit) (h : HostData) (s : State) : Host.Outcome State Fault Refusal :=
  answer true s (s.rowReadRow k es h)

/-- FAR_READ_COMPLETE (R171); far-operation units it frees go on to slot paging too. -/
def execFarReadComplete (k : Nat) (data : Option (List W8)) (h : HostData) (s : State) : Host.Outcome State Fault Refusal :=
  answer true s (s.onIsland 28 fun t => ((t.farReadComplete k data h).seqPump).exchangesPump h)

/-- FAR_WRITEBACK_COMPLETE (R171). -/
def execFarWritebackComplete (k : Nat) (h : HostData) (s : State) : Host.Outcome State Fault Refusal :=
  answer true s (s.onIsland 28 fun t => ((t.farWritebackComplete k h).seqPump).exchangesPump h)

/-- FAR_TIMEOUT (R172, R253): of a far operation, or of a slot's paging. -/
def execFarTimeout (k : Nat) (h : HostData) (s : State) : Host.Outcome State Fault Refusal :=
  answer true s (s.onIsland 28 fun t => (((t.farTimedOut k h).opTimedOut k).seqPump).exchangesPump h)

/-- NVME_COMPLETION (R360): completion queue `y` of drive `d`. -/
def execNvmeCompletion (d y : Nat) (h : HostData) (s : State) : Host.Outcome State Fault Refusal :=
  answer (driveOk d && decide (1 ≤ y) && decide (y ≤ 64)) s (s.onIsland 28 fun t => ((t.nvmeCompletion d y h).seqPump).exchangesPump h)

/-- BLOCK_MOVE_COPY_DONE (R175). -/
def execBlockMoveCopyDone (k : Nat) (s : State) : Host.Outcome State Fault Refusal :=
  answer true s (s.moveRow k)

/-- PLACEMENT_WINDOW_END (R174). -/
def execPlacementWindowEnd (s : State) : Host.Outcome State Fault Refusal :=
  answer true s (s.placementWindowEnd)

/-- REPLICA_EXPIRY (R200). -/
def execReplicaExpiry (s : State) : Host.Outcome State Fault Refusal :=
  answer true s (s.replicaExpiry)

/-- SEQ_SLOT_ACQUIRE (R250, R251). -/
def execSeqSlotAcquire (q c : Nat) (s : State) : Host.Outcome State Fault Refusal :=
  answer (packetOk q c) s (s.onCp fun t => t.seqAcquire (cmdId q c))

/-- SLOT_PAGE_IN_DONE (R250, R253). -/
def execSlotPageInDone (k : Nat) (data : Option (List W8)) (s : State) : Host.Outcome State Fault Refusal :=
  answer true s (s.onIsland 28 fun t => t.pageInDone k data)

/-- SLOT_PAGE_OUT_DONE (R252, R255). -/
def execSlotPageOutDone (k : Nat) (ok : Bool) (s : State) : Host.Outcome State Fault Refusal :=
  answer true s (s.onIsland 28 fun t => t.pageOutDone k ok)

/-- ZERO_ENGINE_PAGE_DONE (R216). -/
def execZeroEnginePageDone (m : Nat) (s : State) : Host.Outcome State Fault Refusal :=
  answer (memIslOk m) s (s.onIsland (16 + m) fun t => t.zeroRow m)

/-- TOYCHEST_SLOT_ZEROED (R63). -/
def execToychestSlotZeroed (k : Nat) (s : State) : Host.Outcome State Fault Refusal :=
  answer (decide (k < 256)) s (s.slotZeroed k)

/-- MEM_PARITY_RETRY (R219, R220): an attempt at an access to a line, for a packet's command or for the device itself. -/
def execMemParityRetry (line lane : Nat) (write ok : Bool) (who : Option (Nat × Nat)) (s : State) : Host.Outcome State Fault Refusal :=
  answer (lineOk line && decide (lane < 64)) s (s.onIsland (16 + chanOf (line * 64) / 8) fun t =>
    t.parityRetry line lane write ok (who.map fun w => cmdId w.1 w.2))

/-- LANE_REPAIR_DONE (R221). -/
def execLaneRepairDone (c : Nat) (s : State) : Host.Outcome State Fault Refusal :=
  answer (chanOk c) s (s.onIsland (16 + c / 8) fun t => t.laneRepairDone c)

/-- SCRUB_READ (R226). -/
def execScrubRead (c : Nat) (es : List Hit) (s : State) : Host.Outcome State Fault Refusal :=
  answer (chanOk c) s (s.onIsland (16 + c / 8) fun t => t.scrubRead c es)

/-- DATA_FLIT_RX (R187). -/
def execDataFlitRx (l : Nat) (bytes : List W8) (h : HostData) (s : State) : Host.Outcome State Fault Refusal :=
  answer (linkOk l) s (s.onIsland (24 + l / 4) fun t => t.rxAny l bytes h)

/-- CONTROL_FLIT_RX (R185). -/
def execControlFlitRx (l : Nat) (bytes : List W8) (h : HostData) (s : State) : Host.Outcome State Fault Refusal :=
  answer (linkOk l) s (s.onIsland (24 + l / 4) fun t => t.rxAny l bytes h)

/-- FRAME_TRANSMIT (R202). -/
def execFrameTransmit (l : Nat) (s : State) : Host.Outcome State Fault Refusal :=
  answer (linkOk l) s (s.onIsland (24 + l / 4) fun t => t.frameTransmit l)

/-- CONTROL_SLOT (R185). -/
def execControlSlot (l : Nat) (s : State) : Host.Outcome State Fault Refusal :=
  answer (linkOk l) s (s.onIsland (24 + l / 4) fun t => t.controlSlot l)

/-- LINK_RETRY_LIMIT (R187). -/
def execLinkRetryLimit (l : Nat) (h : HostData) (s : State) : Host.Outcome State Fault Refusal :=
  answer (linkOk l) s (s.onIsland (24 + l / 4) fun t => t.linkRetryLimit l h)

/-- LINK_CONTROL_LOSS (R189). -/
def execLinkControlLoss (l : Nat) (h : HostData) (s : State) : Host.Outcome State Fault Refusal :=
  answer (linkOk l) s (s.onIsland (24 + l / 4) fun t => t.linkControlLoss l h)

/-- LINK_LOCK_LOSS (R189). -/
def execLinkLockLoss (l : Nat) (h : HostData) (s : State) : Host.Outcome State Fault Refusal :=
  answer (linkOk l) s (s.onIsland (24 + l / 4) fun t => t.linkLockLoss l h)

/-- LINK_TRAINING_COMPLETE (R188): `good` names the lanes that trained in [3:0], and in [7:4] those without a signal. -/
def execLinkTrainingComplete (l good : Nat) (s : State) : Host.Outcome State Fault Refusal :=
  answer (linkOk l) s (s.onIsland (24 + l / 4) fun t => t.linkTrainingComplete l good)

/-- LINK_REEXAMINE (R188). -/
def execLinkReexamine (l : Nat) (signal : Bool) (s : State) : Host.Outcome State Fault Refusal :=
  answer (linkOk l) s (s.onIsland (24 + l / 4) fun t => t.linkReexamine l signal)

/-- EQ_INTERVAL_END (R190). -/
def execEqIntervalEnd (l : Nat) (s : State) : Host.Outcome State Fault Refusal :=
  answer (linkOk l) s (s.onIsland (24 + l / 4) fun t => t.eqIntervalEnd l)

/-- EXCHANGE_TIMEOUT (R205): of transfer `x`. -/
def execExchangeTimeout (x : Nat) (h : HostData) (s : State) : Host.Outcome State Fault Refusal :=
  answer true s (s.exchangeTimedOut x h)

/-- FENCE_WAIT_TIMEOUT (R323). -/
def execFenceWaitTimeout (q c : Nat) (s : State) : Host.Outcome State Fault Refusal :=
  answer (packetOk q c) s (s.onCp fun t => t.fenceTimeout (cmdId q c))

end Sys2Proof.Machine
end

