-- ==== Sys2Proof/Machine/RowsHost.lean ====
section
/-! DEFINITION. The rows of the host link: register and doorbell writes, resets of functions, host accesses, PCI Express events. -/

namespace Sys2Proof.Machine

/-- A write of the SAFE block of PF BAR0 reaches the device whenever the Safety Island's registers respond (R343). -/
def State.fromSafe (s : State) (f : State → State) : State := if s.clockOn 28 && !s.win.held then f s else s

/-- A register write of the host to the Command Processor: both clocks run (R17). -/
def State.fromHostCp (s : State) (fn : Nat) (f : State → State) : State := s.fromHost fn fun t => t.onIsland 29 f

/-- EPOCH_HOLD_LIMIT_EXPIRY (R72). -/
def execEpochHoldLimitExpiry (s : State) : Host.Outcome State Fault Refusal :=
  answer true s (s.onCp State.holdExpiry)

/-- DOORBELL (R27, R28): a write at offset `off` of the function's BAR2. -/
def execDoorbell (fn off size : Nat) (v : W64) (s : State) : Host.Outcome State Fault Refusal :=
  answer (fnOk fn) s (s.fromHost fn fun t => t.doorbell fn off size v)

/-- QUEUE_ENABLE (R23, R41): function `fn` writes ENABLE = 1 of queue `q`. -/
def execQueueEnable (fn q : Nat) (s : State) : Host.Outcome State Fault Refusal :=
  answer (fnOk fn && queueOk q) s (s.fromHostCp fn fun t => t.queueEnable fn q)

/-- QUEUE_DISABLE (R41, R42). -/
def execQueueDisable (fn q : Nat) (s : State) : Host.Outcome State Fault Refusal :=
  answer (fnOk fn && queueOk q) s (s.fromHostCp fn fun t => t.queueDisable fn q)

/-- QUEUE_PAUSE (R41). -/
def execQueuePause (fn q : Nat) (v : Bool) (s : State) : Host.Outcome State Fault Refusal :=
  answer (fnOk fn && queueOk q) s (s.fromHostCp fn fun t => t.queuePause fn q v)

/-- QUEUE_RESTART (R42). -/
def execQueueRestart (fn q : Nat) (s : State) : Host.Outcome State Fault Refusal :=
  answer (fnOk fn && queueOk q) s (s.fromHostCp fn fun t => t.queueRestart fn q)

/-- QUEUE_RANGE_WRITE (R21): a PF write of TEN.QUEUE_RANGE of tenant `t`. -/
def execQueueRangeWrite (t : Nat) (v : W32) (s : State) : Host.Outcome State Fault Refusal :=
  answer (tenantOk t) s (s.fromHost 0 fun u => u.queueRangeWrite t v.toNat)

/-- EVQ_ENABLE (R39). -/
def execEvqEnable (fn : Nat) (s : State) : Host.Outcome State Fault Refusal :=
  answer (fnOk fn) s (s.fromHostCp fn fun t => t.evqEnableRow fn)

/-- EVQ_HEAD_WRITE (R39). -/
def execEvqHeadWrite (fn : Nat) (v : W32) (s : State) : Host.Outcome State Fault Refusal :=
  answer (fnOk fn) s (s.fromHostCp fn fun t => t.evqHeadWrite fn v)

/-- EPOCH_OPEN (R65). -/
def execEpochOpen (s : State) : Host.Outcome State Fault Refusal :=
  answer true s (s.fromHost 0 State.openEpoch)

/-- EPOCH_ABANDON (R65). -/
def execEpochAbandon (s : State) : Host.Outcome State Fault Refusal :=
  answer true s (s.fromHost 0 State.abandonEpoch)

/-- RWE_WRITE (R7, R65): a PF write of a register with RWE fields, at an offset of PF BAR0. -/
def execRweWrite (off size : Nat) (v : W64) (s : State) : Host.Outcome State Fault Refusal :=
  answer true s (s.rweRow off size v)

/-- REGISTER_WRITE (R7 to R11): in BAR0, or in configuration space. -/
def execRegisterWrite (fn : Nat) (t : RegTarget) (v : W64) (h : HostData) (s : State) : Host.Outcome State Fault Refusal :=
  answer (fnOk fn) s (s.registerWrite fn t v h)

/-- REGISTER_READ_LATCH (R10, R27, R352): a read of the host; of the lower half of a 64-bit register of BAR0, it latches the upper. -/
def execRegisterReadLatch (fn : Nat) (t : ReadTarget) (size : Nat) (s : State) : Host.Outcome State Fault Refusal :=
  answer (fnOk fn) s (s.registerRead fn t size)

/-- SCHED_CLR_MAX (R107). -/
def execSchedClrMax (p : Nat) (s : State) : Host.Outcome State Fault Refusal :=
  answer (partOk p) s (s.fromHost 0 fun t => t.clrMax p)

/-- ARRAY_FENCE_CLEAR (R306). -/
def execArrayFenceClear (n : Nat) (v : W32) (s : State) : Host.Outcome State Fault Refusal :=
  answer (cellOk n) s (s.fromHost 0 fun t => t.fenceClear n v.toNat)

/-- PART_RESET_WRITE (R317). -/
def execPartResetWrite (v : W32) (s : State) : Host.Outcome State Fault Refusal :=
  answer true s (s.fromHost 0 fun t => t.partResetWrite (v.toNat % 65536))

/-- PARTITION_RESET_COMPLETE (R318). -/
def execPartitionResetComplete (p : Nat) (s : State) : Host.Outcome State Fault Refusal :=
  answer (partOk p) s (s.partResetDone p)

/-- SOFTWARE_RESET (R348): a PF write of GLB.DEVICE_RESET. -/
def execSoftwareReset (v : W32) (s : State) : Host.Outcome State Fault Refusal :=
  answer true s (s.fromHost 0 fun t => t.softwareReset v.toNat)

/-- SVN_COMMIT (R347): a PF write of SAFE.SVN_COMMIT, of the SAFE block. -/
def execSvnCommit (v : W32) (s : State) : Host.Outcome State Fault Refusal :=
  answer true s (s.fromSafe fun t => t.svnCommit (v.toNat % 128))

/-- LINK_ENABLE (R188). -/
def execLinkEnable (l : Nat) (s : State) : Host.Outcome State Fault Refusal :=
  answer (linkOk l) s (s.fromHost 0 fun t => t.linkEnable l)

/-- LINK_DISABLE (R189). -/
def execLinkDisable (l : Nat) (h : HostData) (s : State) : Host.Outcome State Fault Refusal :=
  answer (linkOk l) s (s.fromHost 0 fun t => t.linkDisable l h)

/-- LINK_DEVICE_WRITE (R192). -/
def execLinkDeviceWrite (v : W32) (s : State) : Host.Outcome State Fault Refusal :=
  answer true s (s.fromHost 0 fun t => t.linkDeviceWrite v.toNat)

/-- NVME_AREA_ENABLE (R358): a write of HOST.NVME_CTRL. -/
def execNvmeAreaEnable (v : W32) (s : State) : Host.Outcome State Fault Refusal :=
  answer true s (s.fromHost 0 fun t => t.areaEnable v.toNat)

/-- NVME_DRIVE_ENABLE (R359): a write of the configuration of drive `d`. -/
def execNvmeDriveEnable (d : Nat) (v : W64) (s : State) : Host.Outcome State Fault Refusal :=
  answer (driveOk d) s (s.fromHost 0 fun t => t.driveCfg d v.toNat)

/-- NVME_DRIVE_ONLINE (R359). -/
def execNvmeDriveOnline (d : Nat) (on : Bool) (s : State) : Host.Outcome State Fault Refusal :=
  answer (driveOk d) s (s.fromHost 0 fun t => t.driveOnline d on)

/-- CAP_WRITE (R334): from the PF, or with `mgmt` from the management path. -/
def execCapWrite (v : W32) (mgmt : Bool) (s : State) : Host.Outcome State Fault Refusal :=
  answer true s (if mgmt then s.mgmt fun t => t.capWrite v.toNat true else s.fromHost 0 fun t => t.capWrite v.toNat false)

/-- VF_ENABLE_CLEAR (R383). -/
def execVfEnableClear (s : State) : Host.Outcome State Fault Refusal :=
  answer true s (s.fromConfig 0 State.vfEnableClear)

/-- MSIX_UNMASK (R87): a vector's mask bit is cleared. -/
def execMsixUnmask (fn v : Nat) (s : State) : Host.Outcome State Fault Refusal :=
  answer (vectorOk fn v) s (s.fromHost fn fun t => t.msixWrite fn v 3 0)

/-- MSIX_SEND (R86): the moderator of a vector is evaluated. -/
def execMsixSend (fn v : Nat) (s : State) : Host.Outcome State Fault Refusal :=
  answer (vectorOk fn v) s (if s.win.ready then s.onIsland 28 fun t => t.moderate fn v else s)

/-- FLR_PF (R350). -/
def execFlrPf (s : State) : Host.Outcome State Fault Refusal :=
  answer true s (s.fromConfig 0 State.flrPf)

/-- FLR_VF (R319). -/
def execFlrVf (t : Nat) (s : State) : Host.Outcome State Fault Refusal :=
  answer (tenantOk t) s (s.fromConfig (t + 1) fun u => u.flrVf t)

/-- BAR4_ACCESS (R211). -/
def execBar4Access (fn off len : Nat) (write : Option (List W8)) (es : List Hit) (s : State) : Host.Outcome State Fault Refusal :=
  answer (fnOk fn) s (s.fromHost fn fun t => t.bar4Access fn off len write es)

/-- NVME_AREA_ACCESS (R361). -/
def execNvmeAreaAccess (rid off len : Nat) (write : Option (List W8)) (s : State) : Host.Outcome State Fault Refusal :=
  answer (decide (rid < 65536)) s (s.fromHost 0 fun t => t.areaAccess rid off len write)

/-- HOST_LINK_CHANGE (R351). -/
def execHostLinkChange (rate width : Nat) (flit : Bool) (s : State) : Host.Outcome State Fault Refusal :=
  answer true s (s.onIsland 28 fun t => t.hostLinkChange rate width flit)

/-- PCIE_ERROR_RX (R354). -/
def execPcieErrorRx (fn : Nat) (ur : Bool) (s : State) : Host.Outcome State Fault Refusal :=
  answer (fnOk fn) s (s.onIsland 28 fun t => t.pcieError fn ur)

/-- PTM_DIALOG (R356, R357). -/
def execPtmDialog (master : Option W64) (s : State) : Host.Outcome State Fault Refusal :=
  answer true s (s.onIsland 28 fun t => t.ptmRow master)

/-- COMPLETION_TIMEOUT (R354). -/
def execCompletionTimeout (t : CtoRead) (h : HostData) (s : State) : Host.Outcome State Fault Refusal :=
  answer (ctoOk t) s (s.onIsland 28 fun u => u.completionTimeout t h)

end Sys2Proof.Machine
end

