-- ==== Sys2Proof/Machine/RowsPacket.lean ====
section
/-! DEFINITION. The rows of families 0x0, 0x1, 0x8 and 0xF: control, models, pages and memory, the epoch. -/

namespace Sys2Proof.Machine

/-- NOP (R32): completes with ST_DONE and DETAIL 0. -/
def execNop (q c : Nat) (_ : HostData) (s : State) : Host.Outcome State Fault Refusal :=
  answer (packetOk q c) s (s.runCmd 0x00 q c (fun t x => t.finish x.id stDone 0) keep)

/-- STEP_BEGIN (R47, R93): the step is admitted with its key, and the command completes. -/
def execStepBegin (q c : Nat) (_ : HostData) (s : State) : Host.Outcome State Fault Refusal :=
  answer (packetOk q c) s (s.runCmd 0x01 q c (fun t x => t.stepBegin x) keep)

/-- STEP_END (R35, R47): when every other command of its step has completed. -/
def execStepEnd (q c : Nat) (h : HostData) (s : State) : Host.Outcome State Fault Refusal :=
  answer (packetOk q c) s (s.runCmd 0x02 q c (fun t x => t.stepEnd x h) (fun t x => t.exchangePump x.sid h))

/-- FENCE_SIGNAL (R322). -/
def execFenceSignal (q c : Nat) (_ : HostData) (s : State) : Host.Outcome State Fault Refusal :=
  answer (packetOk q c) s (s.runCmd 0x03 q c (fun t x => t.fenceSignal x) keep)

/-- FENCE_WAIT (R323). -/
def execFenceWait (q c : Nat) (_ : HostData) (s : State) : Host.Outcome State Fault Refusal :=
  answer (packetOk q c) s (s.runCmd 0x04 q c (fun t x => t.fenceWait x) (ifWaits fun t x => t.fenceCheck x))

/-- MODEL_LOAD (R57, R58). -/
def execModelLoad (q c : Nat) (_ : HostData) (s : State) : Host.Outcome State Fault Refusal :=
  answer (packetOk q c) s (s.runCmd 0x10 q c (fun t x => t.modelLoad x) (ifWaits fun t _ => t.toyPump))

/-- MODEL_PIN (R61). -/
def execModelPin (q c : Nat) (_ : HostData) (s : State) : Host.Outcome State Fault Refusal :=
  answer (packetOk q c) s (s.runCmd 0x11 q c (fun t x => t.modelPin x) keep)

/-- MODEL_EVICT (R62): waits for the contexts fetched before it that use the model. -/
def execModelEvict (q c : Nat) (_ : HostData) (s : State) : Host.Outcome State Fault Refusal :=
  answer (packetOk q c) s (s.runCmd 0x12 q c (fun t x => t.modelEvict x) (ifWaits fun t x => t.modelEvict x))

/-- PAGE_ALLOC (R213, R214). -/
def execPageAlloc (q c : Nat) (_ : HostData) (s : State) : Host.Outcome State Fault Refusal :=
  answer (packetOk q c) s (s.runCmd 0x80 q c (fun t x => t.pageAlloc x) fun t x => t.allocZeroed x)

/-- PAGE_FREE (R215); of an entry of the NVMe area it disables the area (R358). -/
def execPageFree (q c : Nat) (_ : HostData) (s : State) : Host.Outcome State Fault Refusal :=
  answer (packetOk q c) s (s.runCmd 0x81 q c (fun t x => (t.pageFree x).areaGuard) keep)

/-- MEM_ZERO (R217): slices on the zero engine of the range's first page. -/
def execMemZero (q c : Nat) (_ : HostData) (s : State) : Host.Outcome State Fault Refusal :=
  answer (packetOk q c) s (s.runCmd 0x82 q c (fun t x => t.memZeroBegin x) keep)

/-- MEM_COPY (R217). -/
def execMemCopy (q c : Nat) (_ : HostData) (s : State) : Host.Outcome State Fault Refusal :=
  answer (packetOk q c) s (s.runCmd 0x83 q c (fun t x => t.memCopyBegin x) keep)

/-- EPOCH_COMMIT (R67 to R72). -/
def execEpochCommit (q c : Nat) (_ : HostData) (s : State) : Host.Outcome State Fault Refusal :=
  answer (packetOk q c) s (s.runCmd 0xF0 q c (fun t x => t.epochCommit x) keep)

end Sys2Proof.Machine
end

