-- ==== Sys2Proof/Machine/RowsQuisto.lean ====
section
/-! DEFINITION. The rows of family 0x7: sealed pages, Quisto commands, the key store. -/

namespace Sys2Proof.Machine

/-- SEAL_ALLOC (R276). -/
def execSealAlloc (q c : Nat) (_ : HostData) (s : State) : Host.Outcome State Fault Refusal :=
  answer (packetOk q c) s (s.runCmd 0x70 q c (fun t x => t.sealAlloc x) keep)

/-- SEAL_FREE (R276). -/
def execSealFree (q c : Nat) (_ : HostData) (s : State) : Host.Outcome State Fault Refusal :=
  answer (packetOk q c) s (s.runCmd 0x71 q c (fun t x => t.sealFree x) keep)

/-- QPARAM_SET (R280, R281, R284): its checks, then slices on a Quisto unit. -/
def execQparamSet (q c : Nat) (_ : HostData) (s : State) : Host.Outcome State Fault Refusal :=
  answer (packetOk q c) s (s.runCmd 0x72 q c (fun t x => t.quistoBegin x) keep)

/-- GATE_BATCH (R280, R281, R286): its checks, then slices on a Quisto unit. -/
def execGateBatch (q c : Nat) (_ : HostData) (s : State) : Host.Outcome State Fault Refusal :=
  answer (packetOk q c) s (s.runCmd 0x73 q c (fun t x => t.quistoBegin x) keep)

/-- BASE_CONVERT (R280, R281, R288): its checks, then slices on a Quisto unit. -/
def execBaseConvert (q c : Nat) (_ : HostData) (s : State) : Host.Outcome State Fault Refusal :=
  answer (packetOk q c) s (s.runCmd 0x74 q c (fun t x => t.quistoBegin x) keep)

/-- SHARE_OP (R280, R281, R289): its checks, then slices on a Quisto unit. -/
def execShareOp (q c : Nat) (_ : HostData) (s : State) : Host.Outcome State Fault Refusal :=
  answer (packetOk q c) s (s.runCmd 0x75 q c (fun t x => t.quistoBegin x) keep)

/-- TRIPLE_GEN (R280, R281, R290): its checks, then slices on a Quisto unit. -/
def execTripleGen (q c : Nat) (_ : HostData) (s : State) : Host.Outcome State Fault Refusal :=
  answer (packetOk q c) s (s.runCmd 0x76 q c (fun t x => t.quistoBegin x) keep)

/-- CURVE_OP (R280, R281, R292): its checks, then slices on a Quisto unit. -/
def execCurveOp (q c : Nat) (_ : HostData) (s : State) : Host.Outcome State Fault Refusal :=
  answer (packetOk q c) s (s.runCmd 0x77 q c (fun t x => t.quistoBegin x) keep)

/-- HASH_TO_CURVE (R280, R281, R292): its checks, then slices on a Quisto unit. -/
def execHashToCurve (q c : Nat) (_ : HostData) (s : State) : Host.Outcome State Fault Refusal :=
  answer (packetOk q c) s (s.runCmd 0x78 q c (fun t x => t.quistoBegin x) keep)

/-- QRNG_FILL (R280, R281, R297): its checks, then slices on a Quisto unit. -/
def execQrngFill (q c : Nat) (_ : HostData) (s : State) : Host.Outcome State Fault Refusal :=
  answer (packetOk q c) s (s.runCmd 0x79 q c (fun t x => t.quistoBegin x) keep)

/-- KEY_AGREE (R280, R281, R298): its checks, then slices on a Quisto unit. -/
def execKeyAgree (q c : Nat) (_ : HostData) (s : State) : Host.Outcome State Fault Refusal :=
  answer (packetOk q c) s (s.runCmd 0x7A q c (fun t x => t.quistoBegin x) keep)

/-- SHARE_EXPORT (R280, R281, R299): its checks, then slices on a Quisto unit. -/
def execShareExport (q c : Nat) (_ : HostData) (s : State) : Host.Outcome State Fault Refusal :=
  answer (packetOk q c) s (s.runCmd 0x7B q c (fun t x => t.quistoBegin x) keep)

/-- SHARE_IMPORT (R280, R281, R299): its checks, then slices on a Quisto unit. -/
def execShareImport (q c : Nat) (_ : HostData) (s : State) : Host.Outcome State Fault Refusal :=
  answer (packetOk q c) s (s.runCmd 0x7C q c (fun t x => t.quistoBegin x) keep)

/-- KEY_UPDATE (R301). -/
def execKeyUpdate (q c : Nat) (_ : HostData) (s : State) : Host.Outcome State Fault Refusal :=
  answer (packetOk q c) s (s.runCmd 0x7E q c (fun t x => t.keyUpdate x) keep)

end Sys2Proof.Machine
end

