-- ==== Sys2Proof/Machine/RowsSystem.lean ====
section
/-! DEFINITION. The rows of power, safety, resets, Windup, and management. -/

namespace Sys2Proof.Machine

/-- CONTROL_INTERVAL (R329): with the power measured, the islands' readings, and the temperatures a boundary on the same instant samples. -/
def execControlInterval (mw : Nat) (rs : List IslRead) (temps : List ChanTemp) (s : State) : Host.Outcome State Fault Refusal :=
  answer (readsOk rs && tempsOk temps) s (s.controlRow mw rs temps)

/-- CAP_EFFECTIVE (R334). -/
def execCapEffective (s : State) : Host.Outcome State Fault Refusal :=
  answer true s (s.capEffective)

/-- CAP_ESCALATION (R336). -/
def execCapEscalation (s : State) : Host.Outcome State Fault Refusal :=
  answer true s (s.capEscalation)

/-- CAP_UNMET_CHANGE (R336). -/
def execCapUnmetChange (s : State) : Host.Outcome State Fault Refusal :=
  answer true s (s.capUnmet)

/-- THROTTLE_DEMAND_DECAY (R331). -/
def execThrottleDemandDecay (k src : Nat) (s : State) : Host.Outcome State Fault Refusal :=
  answer (islandOk k && decide (src < 5)) s (s.demandDecay k src)

/-- THROTTLE_STOP_WINDOW_END (R330). -/
def execThrottleStopWindowEnd (k : Nat) (s : State) : Host.Outcome State Fault Refusal :=
  answer (islandOk k) s (s.stopWindowEnd k)

/-- STACK_HEAT_ESCALATE (R338). -/
def execStackHeatEscalate (n : Nat) (s : State) : Host.Outcome State Fault Refusal :=
  answer (stackOk n) s (s.stackEscalate n)

/-- BRAKE_EDGE (R339). -/
def execBrakeEdge (low : Bool) (s : State) : Host.Outcome State Fault Refusal :=
  answer true s (s.brakeEdge low)

/-- THERMAL_TRIP (R340). -/
def execThermalTrip (s : State) : Host.Outcome State Fault Refusal :=
  answer true s (s.thermalTrip)

/-- DROOP_DETECT (R332). -/
def execDroopDetect (k : Nat) (s : State) : Host.Outcome State Fault Refusal :=
  answer (islandOk k) s (s.droopDetect k)

/-- DROOP_RESTART (R112, R332). -/
def execDroopRestart (k : Nat) (lost : Bool) (s : State) : Host.Outcome State Fault Refusal :=
  answer (islandOk k) s (s.droopRestart k lost)

/-- CLOCK_VOLTAGE_FAULT (R308). -/
def execClockVoltageFault (k : Nat) (s : State) : Host.Outcome State Fault Refusal :=
  answer (islandOk k) s (s.clockFault k)

/-- CLOCK_FAULT_RESTART (R308). -/
def execClockFaultRestart (k : Nat) (s : State) : Host.Outcome State Fault Refusal :=
  answer (islandOk k) s (s.clockRestart k)

/-- LOCKSTEP_MISMATCH (R307). -/
def execLockstepMismatch (s : State) : Host.Outcome State Fault Refusal :=
  answer true s (s.onIsland 29 State.lockstep)

/-- ENTROPY_HEALTH_FAIL (R296). -/
def execEntropyHealthFail (u test : Nat) (s : State) : Host.Outcome State Fault Refusal :=
  answer (qUnitOk u && decide (1 ≤ test) && decide (test ≤ 3)) s (s.onIsland (30 + u) fun t => t.entropyFail u test)

/-- ENTROPY_RESTART (R296). -/
def execEntropyRestart (u : Nat) (ok : Bool) (s : State) : Host.Outcome State Fault Refusal :=
  answer (qUnitOk u) s (s.onIsland (30 + u) fun t => t.entropyRestart u ok)

/-- DRBG_RESEED (R295). -/
def execDrbgReseed (u : Nat) (s : State) : Host.Outcome State Fault Refusal :=
  answer (qUnitOk u) s (s.onIsland (30 + u) fun t => t.drbgReseed u)

/-- KEY_UPDATE_COMPLETE (R301). -/
def execKeyUpdateComplete (o : KeyOutcome) (s : State) : Host.Outcome State Fault Refusal :=
  answer true s (s.keyComplete o)

/-- CONFIGURATION_CRC_CHECK (R305). -/
def execConfigurationCrcCheck (ok : Bool) (s : State) : Host.Outcome State Fault Refusal :=
  answer true s (s.crcCheck ok)

/-- POWER_ON_RESET (R348). -/
def execPowerOnReset (s : State) : Host.Outcome State Fault Refusal :=
  answer true s (s.powerOn)

/-- CONVENTIONAL_RESET (R348). -/
def execConventionalReset (s : State) : Host.Outcome State Fault Refusal :=
  answer true s (s.conventionalReset)

/-- MANAGEMENT_RESET (R348): a state of PLDM effecter 22. -/
def execManagementReset (v : Nat) (s : State) : Host.Outcome State Fault Refusal :=
  answer true s (s.managementReset v)

/-- TEST_RESET (R365). -/
def execTestReset (i : Tap) (s : State) : Host.Outcome State Fault Refusal :=
  answer true s (s.testReset i)

/-- TAP_INSTRUCTION (R365). -/
def execTapInstruction (i : Tap) (s : State) : Host.Outcome State Fault Refusal :=
  answer true s (s.tapInstr i)

/-- FUSE_READ (R302). -/
def execFuseRead (rootOk : Bool) (s : State) : Host.Outcome State Fault Refusal :=
  answer true s (s.fuseStage rootOk)

/-- SAFE_START (R342). -/
def execSafeStart (ok : Bool) (s : State) : Host.Outcome State Fault Refusal :=
  answer true s (s.safeStart ok)

/-- SECURE_BOOT (R346). -/
def execSecureBoot (s : State) : Host.Outcome State Fault Refusal :=
  answer true s (s.secureBoot)

/-- STACK_TRAIN (R342): `bad` is a channel that does not train. -/
def execStackTrain (bad : Option Nat) (s : State) : Host.Outcome State Fault Refusal :=
  answer ((match bad with
    | some c => chanOk c
    | none => true)) s (s.stackTrain bad)

/-- LINK_TRAIN (R342). -/
def execLinkTrain (good : List (Nat × Nat)) (s : State) : Host.Outcome State Fault Refusal :=
  answer (good.all fun e => linkOk e.1) s (s.linkTrain good)

/-- SELF_TEST (R342). -/
def execSelfTest (bad : List Nat) (u0 u1 : Bool) (s : State) : Host.Outcome State Fault Refusal :=
  answer (bad.all arrayOk) s (s.selfTest bad u0 u1)

/-- READY (R344). -/
def execReady (s : State) : Host.Outcome State Fault Refusal :=
  answer true s (s.goReady)

/-- MCTP_SET_ENDPOINT_ID (R362). -/
def execMctpSetEndpointId (v : Nat) (s : State) : Host.Outcome State Fault Refusal :=
  answer (decide (v < 256)) s (s.mgmt fun t => t.setEid v)

/-- PLDM_SENSOR_READ (R363). -/
def execPldmSensorRead (id : Nat) (s : State) : Host.Outcome State Fault Refusal :=
  answer true s (s.mgmt fun t => t.sensorRead id)

/-- MGMT_DEVNUM_WRITE (R364, R372). -/
def execMgmtDevnumWrite (v : Nat) (s : State) : Host.Outcome State Fault Refusal :=
  answer true s (s.mgmt fun t => t.devnumWrite v)

/-- FAULT_LOG_READ (R364). -/
def execFaultLogRead (i : Nat) (s : State) : Host.Outcome State Fault Refusal :=
  answer (decide (i < 256)) s (s.mgmt fun t => t.logRead i)

/-- FIRMWARE_UPDATE_TRANSFER (R363). -/
def execFirmwareUpdateTransfer (len off : Nat) (bytes : List W8) (s : State) : Host.Outcome State Fault Refusal :=
  answer true s (s.mgmt fun t => t.fwTransfer len off bytes)

/-- APPLY_COMPLETE (R363). -/
def execApplyComplete (s : State) : Host.Outcome State Fault Refusal :=
  answer true s (s.mgmt State.applyComplete)

/-- ACTIVATE_FIRMWARE (R347, R363). -/
def execActivateFirmware (s : State) : Host.Outcome State Fault Refusal :=
  answer true s (s.mgmt State.activate)

end Sys2Proof.Machine
end

