-- ==== Sys2Proof/Machine/RowsWork.lean ====
section
/-! DEFINITION. The rows of families 0x2 to 0x6: matrix work and layer records, tables, sequences, intake and locale, Exchange. -/

namespace Sys2Proof.Machine

/-- GATHER_POOL begins; bags without an index are final at once (R161, R163). -/
def State.gatherStart (s : State) (x : Ctx) (h : HostData) : State :=
  let g := s.emb.nextK
  let t := s.gatherBegin x h
  if t.emb.nextK = g then t else t.gatherPump g h

/-- A GATHER_POOL whose bags wait on an account is looked at again (R81). -/
def State.gatherAgain (s : State) (x : Ctx) (h : HostData) : State :=
  match s.emb.gathers.find? fun g => g.x.id = x.id ∧ !g.done with
  | some g => s.gatherPump g.gid h
  | none => s

/-- MATMUL (R117 to R120): its tiles become ready. -/
def execMatmul (q c : Nat) (h : HostData) (s : State) : Host.Outcome State Fault Refusal :=
  answer (packetOk q c) s (s.runCmd 0x20 q c (fun t x => t.matBegin x h) keep)

/-- GATE_ONLY (R121). -/
def execGateOnly (q c : Nat) (h : HostData) (s : State) : Host.Outcome State Fault Refusal :=
  answer (packetOk q c) s (s.runCmd 0x21 q c (fun t x => t.matBegin x h) keep)

/-- LAYER_SET (R140). -/
def execLayerSet (q c : Nat) (h : HostData) (s : State) : Host.Outcome State Fault Refusal :=
  answer (packetOk q c) s (s.runCmd 0x22 q c (fun t x => t.layerSet x h) keep)

/-- LAYER_READ (R141). -/
def execLayerRead (q c : Nat) (_ : HostData) (s : State) : Host.Outcome State Fault Refusal :=
  answer (packetOk q c) s (s.runCmd 0x23 q c (fun t x => t.layerRead x) keep)

/-- TABLE_DEFINE (R155, R157). -/
def execTableDefine (q c : Nat) (h : HostData) (s : State) : Host.Outcome State Fault Refusal :=
  answer (packetOk q c) s (s.runCmd 0x30 q c (fun t x => t.tableDefine x h) keep)

/-- TABLE_RETIRE (R158). -/
def execTableRetire (q c : Nat) (_ : HostData) (s : State) : Host.Outcome State Fault Refusal :=
  answer (packetOk q c) s (s.runCmd 0x31 q c (fun t x => (t.tableRetire x).jobPump x.id) (ifWaits fun t x => (t.tableRetire x).jobPump x.id))

/-- GATHER_POOL (R159 to R163). -/
def execGatherPool (q c : Nat) (h : HostData) (s : State) : Host.Outcome State Fault Refusal :=
  answer (packetOk q c) s (s.runCmd 0x32 q c (fun t x => t.gatherStart x h) (fun t x => t.gatherAgain x h))

/-- ROW_UPDATE (R177). -/
def execRowUpdate (q c : Nat) (h : HostData) (s : State) : Host.Outcome State Fault Refusal :=
  answer (packetOk q c) s (s.runCmd 0x33 q c (fun t x => t.rowUpdateBegin x h) keep)

/-- TABLE_LOAD (R180). -/
def execTableLoad (q c : Nat) (_ : HostData) (s : State) : Host.Outcome State Fault Refusal :=
  answer (packetOk q c) s (s.runCmd 0x34 q c (fun t x => t.tableLoadBegin x) keep)

/-- TABLE_FLUSH (R181). -/
def execTableFlush (q c : Nat) (_ : HostData) (s : State) : Host.Outcome State Fault Refusal :=
  answer (packetOk q c) s (s.runCmd 0x35 q c (fun t x => (t.tableFlush x).jobPump x.id) (fun t x => t.jobPump x.id))

/-- TABLE_STATS (R173). -/
def execTableStats (q c : Nat) (_ : HostData) (s : State) : Host.Outcome State Fault Refusal :=
  answer (packetOk q c) s (s.runCmd 0x36 q c (fun t x => t.tableStats x) keep)

/-- SEQ_DEFINE (R241). -/
def execSeqDefine (q c : Nat) (h : HostData) (s : State) : Host.Outcome State Fault Refusal :=
  answer (packetOk q c) s (s.runCmd 0x40 q c (fun t x => t.seqDefine x h) keep)

/-- SEQ_CHUNK (R243 to R245): its slots acquired and at rest, its tiles become ready. -/
def execSeqChunk (q c : Nat) (_ : HostData) (s : State) : Host.Outcome State Fault Refusal :=
  answer (packetOk q c) s (s.runCmd 0x41 q c (fun t x => t.seqBegin x) keep)

/-- SEQ_TOUCH (R246). -/
def execSeqTouch (q c : Nat) (_ : HostData) (s : State) : Host.Outcome State Fault Refusal :=
  answer (packetOk q c) s (s.runCmd 0x42 q c (fun t x => t.seqTouch x) (fun t _ => t.seqPump))

/-- SEQ_RETIRE (R247). -/
def execSeqRetire (q c : Nat) (_ : HostData) (s : State) : Host.Outcome State Fault Refusal :=
  answer (packetOk q c) s (s.runCmd 0x43 q c (fun t x => t.seqRetire x) (ifWaits fun t x => t.seqRetire x))

/-- INTAKE_DECODE (R256, R259): it waits for the decode engine, whose first slice makes its checks. -/
def execIntakeDecode (q c : Nat) (_ : HostData) (s : State) : Host.Outcome State Fault Refusal :=
  answer (packetOk q c) s (s.runCmd 0x50 q c (fun t x => t.intBegin x) keep)

/-- RNG_FILL (R256, R264). -/
def execRngFill (q c : Nat) (_ : HostData) (s : State) : Host.Outcome State Fault Refusal :=
  answer (packetOk q c) s (s.runCmd 0x51 q c (fun t x => t.intBegin x) keep)

/-- FRAME_CONVERT (R256, R266). -/
def execFrameConvert (q c : Nat) (_ : HostData) (s : State) : Host.Outcome State Fault Refusal :=
  answer (packetOk q c) s (s.runCmd 0x52 q c (fun t x => t.intBegin x) keep)

/-- LOCALE_PILLARS (R256, R268). -/
def execLocalePillars (q c : Nat) (_ : HostData) (s : State) : Host.Outcome State Fault Refusal :=
  answer (packetOk q c) s (s.runCmd 0x53 q c (fun t x => t.intBegin x) keep)

/-- RULEBOOK_BUILD (R256, R272). -/
def execRulebookBuild (q c : Nat) (_ : HostData) (s : State) : Host.Outcome State Fault Refusal :=
  answer (packetOk q c) s (s.runCmd 0x54 q c (fun t x => t.intBegin x) keep)

/-- LOCALE_GATHER (R256, R273). -/
def execLocaleGather (q c : Nat) (_ : HostData) (s : State) : Host.Outcome State Fault Refusal :=
  answer (packetOk q c) s (s.runCmd 0x55 q c (fun t x => t.intBegin x) keep)

/-- EXCHANGE (R195, R201). -/
def execExchange (q c : Nat) (h : HostData) (s : State) : Host.Outcome State Fault Refusal :=
  answer (packetOk q c) s (s.runCmd 0x60 q c (fun t x => t.exchangeStart x false h) (fun t x => t.exchangePump x.sid h))

end Sys2Proof.Machine
end

