-- ==== Sys2Proof/Machine/Dispatch.lean ====
section
/-! DEFINITION. The command's meaning by its constructor, one arm each. -/

namespace Sys2Proof.Machine

/-- What a command does to everything but the queue. -/
def exec (i : Instr) (s : State) : Host.Outcome State Fault Refusal :=
  match i with
  | .NOP q c h => Sys2Proof.Machine.execNop q c h s
  | .STEP_BEGIN q c h => Sys2Proof.Machine.execStepBegin q c h s
  | .STEP_END q c h => Sys2Proof.Machine.execStepEnd q c h s
  | .FENCE_SIGNAL q c h => Sys2Proof.Machine.execFenceSignal q c h s
  | .FENCE_WAIT q c h => Sys2Proof.Machine.execFenceWait q c h s
  | .MODEL_LOAD q c h => Sys2Proof.Machine.execModelLoad q c h s
  | .MODEL_PIN q c h => Sys2Proof.Machine.execModelPin q c h s
  | .MODEL_EVICT q c h => Sys2Proof.Machine.execModelEvict q c h s
  | .MATMUL q c h => Sys2Proof.Machine.execMatmul q c h s
  | .GATE_ONLY q c h => Sys2Proof.Machine.execGateOnly q c h s
  | .LAYER_SET q c h => Sys2Proof.Machine.execLayerSet q c h s
  | .LAYER_READ q c h => Sys2Proof.Machine.execLayerRead q c h s
  | .TABLE_DEFINE q c h => Sys2Proof.Machine.execTableDefine q c h s
  | .TABLE_RETIRE q c h => Sys2Proof.Machine.execTableRetire q c h s
  | .GATHER_POOL q c h => Sys2Proof.Machine.execGatherPool q c h s
  | .ROW_UPDATE q c h => Sys2Proof.Machine.execRowUpdate q c h s
  | .TABLE_LOAD q c h => Sys2Proof.Machine.execTableLoad q c h s
  | .TABLE_FLUSH q c h => Sys2Proof.Machine.execTableFlush q c h s
  | .TABLE_STATS q c h => Sys2Proof.Machine.execTableStats q c h s
  | .SEQ_DEFINE q c h => Sys2Proof.Machine.execSeqDefine q c h s
  | .SEQ_CHUNK q c h => Sys2Proof.Machine.execSeqChunk q c h s
  | .SEQ_TOUCH q c h => Sys2Proof.Machine.execSeqTouch q c h s
  | .SEQ_RETIRE q c h => Sys2Proof.Machine.execSeqRetire q c h s
  | .INTAKE_DECODE q c h => Sys2Proof.Machine.execIntakeDecode q c h s
  | .RNG_FILL q c h => Sys2Proof.Machine.execRngFill q c h s
  | .FRAME_CONVERT q c h => Sys2Proof.Machine.execFrameConvert q c h s
  | .LOCALE_PILLARS q c h => Sys2Proof.Machine.execLocalePillars q c h s
  | .RULEBOOK_BUILD q c h => Sys2Proof.Machine.execRulebookBuild q c h s
  | .LOCALE_GATHER q c h => Sys2Proof.Machine.execLocaleGather q c h s
  | .EXCHANGE q c h => Sys2Proof.Machine.execExchange q c h s
  | .SEAL_ALLOC q c h => Sys2Proof.Machine.execSealAlloc q c h s
  | .SEAL_FREE q c h => Sys2Proof.Machine.execSealFree q c h s
  | .QPARAM_SET q c h => Sys2Proof.Machine.execQparamSet q c h s
  | .GATE_BATCH q c h => Sys2Proof.Machine.execGateBatch q c h s
  | .BASE_CONVERT q c h => Sys2Proof.Machine.execBaseConvert q c h s
  | .SHARE_OP q c h => Sys2Proof.Machine.execShareOp q c h s
  | .TRIPLE_GEN q c h => Sys2Proof.Machine.execTripleGen q c h s
  | .CURVE_OP q c h => Sys2Proof.Machine.execCurveOp q c h s
  | .HASH_TO_CURVE q c h => Sys2Proof.Machine.execHashToCurve q c h s
  | .QRNG_FILL q c h => Sys2Proof.Machine.execQrngFill q c h s
  | .KEY_AGREE q c h => Sys2Proof.Machine.execKeyAgree q c h s
  | .SHARE_EXPORT q c h => Sys2Proof.Machine.execShareExport q c h s
  | .SHARE_IMPORT q c h => Sys2Proof.Machine.execShareImport q c h s
  | .KEY_UPDATE q c h => Sys2Proof.Machine.execKeyUpdate q c h s
  | .PAGE_ALLOC q c h => Sys2Proof.Machine.execPageAlloc q c h s
  | .PAGE_FREE q c h => Sys2Proof.Machine.execPageFree q c h s
  | .MEM_ZERO q c h => Sys2Proof.Machine.execMemZero q c h s
  | .MEM_COPY q c h => Sys2Proof.Machine.execMemCopy q c h s
  | .EPOCH_COMMIT q c h => Sys2Proof.Machine.execEpochCommit q c h s
  | .EPOCH_HOLD_LIMIT_EXPIRY => Sys2Proof.Machine.execEpochHoldLimitExpiry s
  | .DOORBELL fn off size v => Sys2Proof.Machine.execDoorbell fn off size v s
  | .QUEUE_ENABLE fn q => Sys2Proof.Machine.execQueueEnable fn q s
  | .QUEUE_DISABLE fn q => Sys2Proof.Machine.execQueueDisable fn q s
  | .QUEUE_PAUSE fn q v => Sys2Proof.Machine.execQueuePause fn q v s
  | .QUEUE_RESTART fn q => Sys2Proof.Machine.execQueueRestart fn q s
  | .QUEUE_RANGE_WRITE t v => Sys2Proof.Machine.execQueueRangeWrite t v s
  | .EVQ_ENABLE fn => Sys2Proof.Machine.execEvqEnable fn s
  | .EVQ_HEAD_WRITE fn v => Sys2Proof.Machine.execEvqHeadWrite fn v s
  | .EPOCH_OPEN => Sys2Proof.Machine.execEpochOpen s
  | .EPOCH_ABANDON => Sys2Proof.Machine.execEpochAbandon s
  | .RWE_WRITE off size v => Sys2Proof.Machine.execRweWrite off size v s
  | .REGISTER_WRITE fn t v h => Sys2Proof.Machine.execRegisterWrite fn t v h s
  | .REGISTER_READ_LATCH fn t size => Sys2Proof.Machine.execRegisterReadLatch fn t size s
  | .SCHED_CLR_MAX p => Sys2Proof.Machine.execSchedClrMax p s
  | .ARRAY_FENCE_CLEAR n v => Sys2Proof.Machine.execArrayFenceClear n v s
  | .PART_RESET_WRITE v => Sys2Proof.Machine.execPartResetWrite v s
  | .PARTITION_RESET_COMPLETE p => Sys2Proof.Machine.execPartitionResetComplete p s
  | .SOFTWARE_RESET v => Sys2Proof.Machine.execSoftwareReset v s
  | .SVN_COMMIT v => Sys2Proof.Machine.execSvnCommit v s
  | .LINK_ENABLE l => Sys2Proof.Machine.execLinkEnable l s
  | .LINK_DISABLE l h => Sys2Proof.Machine.execLinkDisable l h s
  | .LINK_DEVICE_WRITE v => Sys2Proof.Machine.execLinkDeviceWrite v s
  | .NVME_AREA_ENABLE v => Sys2Proof.Machine.execNvmeAreaEnable v s
  | .NVME_DRIVE_ENABLE d v => Sys2Proof.Machine.execNvmeDriveEnable d v s
  | .NVME_DRIVE_ONLINE d on => Sys2Proof.Machine.execNvmeDriveOnline d on s
  | .CAP_WRITE v mgmt => Sys2Proof.Machine.execCapWrite v mgmt s
  | .CAP_EFFECTIVE => Sys2Proof.Machine.execCapEffective s
  | .VF_ENABLE_CLEAR => Sys2Proof.Machine.execVfEnableClear s
  | .MSIX_UNMASK fn v => Sys2Proof.Machine.execMsixUnmask fn v s
  | .MSIX_SEND fn v => Sys2Proof.Machine.execMsixSend fn v s
  | .FETCH_TURN => Sys2Proof.Machine.execFetchTurn s
  | .FETCH_READ_RETURN q r => Sys2Proof.Machine.execFetchReadReturn q r s
  | .COMMAND_DISPATCH q => Sys2Proof.Machine.execCommandDispatch q s
  | .BACKPRESSURE_THRESHOLD q cause => Sys2Proof.Machine.execBackpressureThreshold q cause s
  | .PERIOD_BOUNDARY b => Sys2Proof.Machine.execPeriodBoundary b s
  | .SKETCH_DECAY p => Sys2Proof.Machine.execSketchDecay p s
  | .TOY_USE_DECAY => Sys2Proof.Machine.execToyUseDecay s
  | .TILE_DISPATCH k h => Sys2Proof.Machine.execTileDispatch k h s
  | .TILE_COMMIT k ck h => Sys2Proof.Machine.execTileCommit k ck h s
  | .TILE_WATCHDOG_EXPIRY k => Sys2Proof.Machine.execTileWatchdogExpiry k s
  | .SLICE_END e n ok h => Sys2Proof.Machine.execSliceEnd e n ok h s
  | .SELFTEST_ROUND_OVERRUN => Sys2Proof.Machine.execSelftestRoundOverrun s
  | .FEEDER_REGION_FILLED k e h => Sys2Proof.Machine.execFeederRegionFilled k e h s
  | .DEADLINE_MISS sid => Sys2Proof.Machine.execDeadlineMiss sid s
  | .ROW_READ_COMPLETE k e h => Sys2Proof.Machine.execRowReadComplete k e h s
  | .FAR_READ_COMPLETE k data h => Sys2Proof.Machine.execFarReadComplete k data h s
  | .FAR_WRITEBACK_COMPLETE k h => Sys2Proof.Machine.execFarWritebackComplete k h s
  | .FAR_TIMEOUT k h => Sys2Proof.Machine.execFarTimeout k h s
  | .NVME_COMPLETION d y h => Sys2Proof.Machine.execNvmeCompletion d y h s
  | .BLOCK_MOVE_COPY_DONE k => Sys2Proof.Machine.execBlockMoveCopyDone k s
  | .PLACEMENT_WINDOW_END => Sys2Proof.Machine.execPlacementWindowEnd s
  | .REPLICA_EXPIRY => Sys2Proof.Machine.execReplicaExpiry s
  | .SEQ_SLOT_ACQUIRE q c => Sys2Proof.Machine.execSeqSlotAcquire q c s
  | .SLOT_PAGE_IN_DONE k data => Sys2Proof.Machine.execSlotPageInDone k data s
  | .SLOT_PAGE_OUT_DONE k ok => Sys2Proof.Machine.execSlotPageOutDone k ok s
  | .ZERO_ENGINE_PAGE_DONE m => Sys2Proof.Machine.execZeroEnginePageDone m s
  | .TOYCHEST_SLOT_ZEROED k => Sys2Proof.Machine.execToychestSlotZeroed k s
  | .MEM_PARITY_RETRY line lane write ok who => Sys2Proof.Machine.execMemParityRetry line lane write ok who s
  | .LANE_REPAIR_DONE c => Sys2Proof.Machine.execLaneRepairDone c s
  | .SCRUB_READ c o => Sys2Proof.Machine.execScrubRead c o s
  | .BAR4_ACCESS fn off len write e => Sys2Proof.Machine.execBar4Access fn off len write e s
  | .NVME_AREA_ACCESS rid off len write => Sys2Proof.Machine.execNvmeAreaAccess rid off len write s
  | .DATA_FLIT_RX l bytes h => Sys2Proof.Machine.execDataFlitRx l bytes h s
  | .CONTROL_FLIT_RX l bytes h => Sys2Proof.Machine.execControlFlitRx l bytes h s
  | .FRAME_TRANSMIT l => Sys2Proof.Machine.execFrameTransmit l s
  | .CONTROL_SLOT l => Sys2Proof.Machine.execControlSlot l s
  | .LINK_RETRY_LIMIT l h => Sys2Proof.Machine.execLinkRetryLimit l h s
  | .LINK_CONTROL_LOSS l h => Sys2Proof.Machine.execLinkControlLoss l h s
  | .LINK_LOCK_LOSS l h => Sys2Proof.Machine.execLinkLockLoss l h s
  | .LINK_TRAINING_COMPLETE l good => Sys2Proof.Machine.execLinkTrainingComplete l good s
  | .LINK_REEXAMINE l signal => Sys2Proof.Machine.execLinkReexamine l signal s
  | .EQ_INTERVAL_END l => Sys2Proof.Machine.execEqIntervalEnd l s
  | .EXCHANGE_TIMEOUT x h => Sys2Proof.Machine.execExchangeTimeout x h s
  | .CONTROL_INTERVAL mw rs temps => Sys2Proof.Machine.execControlInterval mw rs temps s
  | .CAP_ESCALATION => Sys2Proof.Machine.execCapEscalation s
  | .CAP_UNMET_CHANGE => Sys2Proof.Machine.execCapUnmetChange s
  | .THROTTLE_DEMAND_DECAY k src => Sys2Proof.Machine.execThrottleDemandDecay k src s
  | .THROTTLE_STOP_WINDOW_END k => Sys2Proof.Machine.execThrottleStopWindowEnd k s
  | .STACK_HEAT_ESCALATE n => Sys2Proof.Machine.execStackHeatEscalate n s
  | .BRAKE_EDGE low => Sys2Proof.Machine.execBrakeEdge low s
  | .THERMAL_TRIP => Sys2Proof.Machine.execThermalTrip s
  | .DROOP_DETECT k => Sys2Proof.Machine.execDroopDetect k s
  | .DROOP_RESTART k lost => Sys2Proof.Machine.execDroopRestart k lost s
  | .CLOCK_VOLTAGE_FAULT k => Sys2Proof.Machine.execClockVoltageFault k s
  | .CLOCK_FAULT_RESTART k => Sys2Proof.Machine.execClockFaultRestart k s
  | .LOCKSTEP_MISMATCH => Sys2Proof.Machine.execLockstepMismatch s
  | .ENTROPY_HEALTH_FAIL u test => Sys2Proof.Machine.execEntropyHealthFail u test s
  | .ENTROPY_RESTART u ok => Sys2Proof.Machine.execEntropyRestart u ok s
  | .DRBG_RESEED u => Sys2Proof.Machine.execDrbgReseed u s
  | .PTM_DIALOG master => Sys2Proof.Machine.execPtmDialog master s
  | .HOST_LINK_CHANGE rate width flit => Sys2Proof.Machine.execHostLinkChange rate width flit s
  | .PCIE_ERROR_RX fn ur => Sys2Proof.Machine.execPcieErrorRx fn ur s
  | .POWER_ON_RESET => Sys2Proof.Machine.execPowerOnReset s
  | .CONVENTIONAL_RESET => Sys2Proof.Machine.execConventionalReset s
  | .MANAGEMENT_RESET v => Sys2Proof.Machine.execManagementReset v s
  | .TEST_RESET j => Sys2Proof.Machine.execTestReset j s
  | .TAP_INSTRUCTION j => Sys2Proof.Machine.execTapInstruction j s
  | .FLR_PF => Sys2Proof.Machine.execFlrPf s
  | .FLR_VF t => Sys2Proof.Machine.execFlrVf t s
  | .FUSE_READ rootOk => Sys2Proof.Machine.execFuseRead rootOk s
  | .SAFE_START ok => Sys2Proof.Machine.execSafeStart ok s
  | .SECURE_BOOT => Sys2Proof.Machine.execSecureBoot s
  | .STACK_TRAIN bad => Sys2Proof.Machine.execStackTrain bad s
  | .LINK_TRAIN good => Sys2Proof.Machine.execLinkTrain good s
  | .SELF_TEST bad u0 u1 => Sys2Proof.Machine.execSelfTest bad u0 u1 s
  | .READY => Sys2Proof.Machine.execReady s
  | .MCTP_SET_ENDPOINT_ID v => Sys2Proof.Machine.execMctpSetEndpointId v s
  | .PLDM_SENSOR_READ id => Sys2Proof.Machine.execPldmSensorRead id s
  | .MGMT_DEVNUM_WRITE v => Sys2Proof.Machine.execMgmtDevnumWrite v s
  | .FAULT_LOG_READ j => Sys2Proof.Machine.execFaultLogRead j s
  | .FIRMWARE_UPDATE_TRANSFER len off bytes => Sys2Proof.Machine.execFirmwareUpdateTransfer len off bytes s
  | .APPLY_COMPLETE => Sys2Proof.Machine.execApplyComplete s
  | .ACTIVATE_FIRMWARE => Sys2Proof.Machine.execActivateFirmware s
  | .FENCE_WAIT_TIMEOUT q c => Sys2Proof.Machine.execFenceWaitTimeout q c s
  | .COMPLETION_TIMEOUT t h => Sys2Proof.Machine.execCompletionTimeout t h s
  | .KEY_UPDATE_COMPLETE o => Sys2Proof.Machine.execKeyUpdateComplete o s
  | .CONFIGURATION_CRC_CHECK ok => Sys2Proof.Machine.execConfigurationCrcCheck ok s

end Sys2Proof.Machine
end

