-- ==== Sys2Proof/Machine/Step.lean ====
section
/-! DEFINITION. One step of the block: the command at the front of the queue, or, with no command waiting, one tick of the device time
base. -/

namespace Sys2Proof.Machine

/-- One step.  On an empty queue the block idles for one tick, with what happens as time passes (assumption log 16). -/
def step (s : State) : Host.Outcome State Fault Refusal :=
  match s.pending with
  | [] => .next { s.tick with pending := [] }
  | c :: rest => exec c { s with pending := rest }

/-- The state with the command that a table word spells put in front of the queue: no row of the table gives bits, so none is. -/
def State.withFetchWord (s : State) (_nbits _w : Nat) : State := s

end Sys2Proof.Machine
end

