-- ==== Sys2Proof/Safety.lean ====
section
/-! DEFINITION. What statements about the block are said with: the canonical form of byte memory, the queue of waiting commands, and the
situations in which a row has its effect. -/

namespace Sys2Proof.Machine

/-- A byte memory has its one canonical form: addresses strictly rising, no entry equal to what an unlisted address reads as. -/
def Memory.wf (m : List Host.Cell) : Bool := memWf m

/-- Both byte memories of a state, the stacked memory and the Toychest, are canonical. -/
def State.canonical (s : State) : Bool := Memory.wf s.mem.bytes && Memory.wf s.toy.bytes

/-- Every command that waits names units the device has. -/
def State.queueSound (s : State) : Prop := ∀ c ∈ s.pending, c.wellFormed = true

/-- The state with the queue of waiting commands that another state has: what a command leads to, for only `step` takes from the queue. -/
def State.keeping (t s : State) : State := { t with pending := s.pending }

/-- A command was given at `s` and led to `t`. -/
def LeadsTo (c : Instr) (s t : State) : Prop := exec c s = .next (t.keeping s)

/-- A packet of opcode `op` has been dispatched and has not begun (R47), and the CP runs: its row has its effect. -/
def State.begins (s : State) (op q c : Nat) (x : Ctx) : Prop :=
  packetOk q c = true ∧ s.cpRuns = true ∧ s.ctx? (cmdId q c) = some x ∧ x.op = op ∧ x.phase = .dispatched ∧ x.work = .none

/-- A packet of opcode `op` has begun and waits (R47), and the CP runs. -/
def State.waitsIn (s : State) (op q c : Nat) (x : Ctx) : Prop :=
  packetOk q c = true ∧ s.cpRuns = true ∧ s.ctx? (cmdId q c) = some x ∧ x.op = op ∧ x.phase = .running

/-- The clocks of an island run. -/
def State.runs (s : State) (k : Nat) : Prop := s.clockOn k = true

/-- A function's register accesses reach the device (R343, R383). -/
def State.reached (s : State) (fn : Nat) : Prop := fnOk fn = true ∧ s.barUp fn = true

/-- Accesses of a function reach offset `o`, and the word there is the 32-bit location `l` (R10). -/
def State.narrowAt (s : State) (fn o : Nat) (l : Loc) : Prop :=
  s.barUp fn = true ∧ s.through fn o = true ∧ o % 4 = 0 ∧ (s.locAt fn (o / 8 * 8)).wide = false ∧ s.locAt fn o = l

/-- Accesses of a function reach offset `o`, where the 64-bit location `l` begins (R10). -/
def State.wideAt (s : State) (fn o : Nat) (l : Loc) : Prop :=
  s.barUp fn = true ∧ s.through fn o = true ∧ o % 8 = 0 ∧ s.locAt fn o = l

/-- The rows that act on registers and on their own unit only, each with the registers it may change. -/
inductive Framed : Instr → List RegName → Prop where
  | toyUseDecay : Framed .TOY_USE_DECAY []
  | sketchDecay (p : Nat) : Framed (.SKETCH_DECAY p) []
  | replicaExpiry : Framed .REPLICA_EXPIRY []
  | queuePause (fn q : Nat) (v : Bool) : Framed (.QUEUE_PAUSE fn q v) []
  | msixSend (fn v : Nat) : Framed (.MSIX_SEND fn v) []
  | msixUnmask (fn v : Nat) : Framed (.MSIX_UNMASK fn v) []
  | drbgReseed (u : Nat) : Framed (.DRBG_RESEED u) []
  | controlSlot (l : Nat) : Framed (.CONTROL_SLOT l) [.eqState]
  | setEndpoint (v : Nat) : Framed (.MCTP_SET_ENDPOINT_ID v) []
  | sensorRead (k : Nat) : Framed (.PLDM_SENSOR_READ k) []
  | logRead (k : Nat) : Framed (.FAULT_LOG_READ k) []
  | firmwarePiece (n o : Nat) (b : List W8) : Framed (.FIRMWARE_UPDATE_TRANSFER n o b) []
  | applyComplete : Framed .APPLY_COMPLETE []
  | epochOpen : Framed .EPOCH_OPEN [.epochCtrl]
  | epochAbandon : Framed .EPOCH_ABANDON [.epochCtrl]
  | rangeWrite (t : Nat) (v : W32) : Framed (.QUEUE_RANGE_WRITE t v) [.queueRange]
  | headWrite (fn : Nat) (v : W32) : Framed (.EVQ_HEAD_WRITE fn v) [.evqHead]
  | clrMax (p : Nat) : Framed (.SCHED_CLR_MAX p) [.preemptMax]
  | fenceClear (n : Nat) (v : W32) : Framed (.ARRAY_FENCE_CLEAR n v) [.arrayFenced]
  | svnCommit (v : W32) : Framed (.SVN_COMMIT v) [.bootStatus]
  | driveOnline (d : Nat) (on : Bool) : Framed (.NVME_DRIVE_ONLINE d on) [.nvmeCfg]
  | capWrite (v : W32) (m : Bool) : Framed (.CAP_WRITE v m) [.cap, .capStatus]
  | droopDetect (k : Nat) : Framed (.DROOP_DETECT k) [.islStatus]
  | clockRestart (k : Nat) : Framed (.CLOCK_FAULT_RESTART k) [.islStatus]
  | windowEnd (k : Nat) : Framed (.THROTTLE_STOP_WINDOW_END k) [.islStatus]
  | reexamine (l : Nat) (sg : Bool) : Framed (.LINK_REEXAMINE l sg) [.lnkStatus, .eqState]
  | activate : Framed .ACTIVATE_FIRMWARE [.bootPrefer]

end Sys2Proof.Machine
end

