-- ==== Sys2Proof/Certificates/Slice0/Obligations.lean ====
section
/-! DEFINITION. The statements for the provers, in the order of OBLIGATIONS.json: the queue of commands, then what each row of the table
does where it has its own effect (`LeadsTo c s t`: the command given at `s` answers the next state `t`, its queue of waiting commands as
it was), then rules over the whole block. -/

open Sys2Proof Sys2Proof.Machine

/-! ### The queue of commands -/

/-- A step of the block with a command in front of its queue is the command's effect on the state with the rest of the queue.  On an empty
queue the block lets one tick of its time base pass (the model's choice: assumption log 16). -/
def Obligations.StepRunsTheFrontCommand : Prop :=
  (∀ (c : Instr) (rest : List Instr) (s : State), s.pending = c :: rest → step s = exec c { s with pending := rest }) ∧
  (∀ s : State, s.pending = [] → step s = .next (s.tick.keeping s))

/-- A command whose operands name units of the device has a next state, and takes nothing from the queue behind it: no row ends a run on the
device's account.  One whose operands name a unit the device does not have stops under the one name there is for that (the model's choice:
assumption log 18). -/
def Obligations.CommandsAnswerByTheirOperands : Prop :=
  (∀ (c : Instr) (s : State), c.wellFormed = true → ∃ t, exec c s = .next t ∧ t.pending = s.pending) ∧
  (∀ (c : Instr) (s : State), c.wellFormed = false → exec c s = .fault .noSuchUnit)

/-- Every step keeps a queue of well-formed commands one, shorter by the command it took; the block then never stops. -/
def Obligations.EveryStepKeepsTheQueueSound : Prop :=
  ∀ s : State, s.queueSound → ∃ t, step s = .next t ∧ t.queueSound ∧ t.pending = s.pending.tail

/-- A queue of well-formed commands is run dry in as many steps as it has commands. -/
def Obligations.ASoundQueueRunsDry : Prop :=
  ∀ s : State, s.queueSound → ∃ t, Host.Core.run core s.pending.length s = .next t ∧ t.pending = []

/-- The block after reset: no command waits, both byte memories are canonical and read zero, no queue and no event ring is enabled, no context is in
flight, the epoch number and every fence are 0, the default partition P0 owns every cell and is ACTIVE, every account holds its budget, and no link
is up. -/
def Obligations.ResetLeavesTheBlockIdle : Prop :=
  State.reset.canonical = true ∧ State.reset.queueSound ∧ State.reset.pending = [] ∧
  (∀ a, memGet State.reset.mem.bytes a = 0 ∧ memGet State.reset.toy.bytes a = 0) ∧
  (∀ q, (State.reset.queue q).mode = .disabled ∧ (State.reset.queue q).enable = false) ∧
  (∀ fn, State.reset.rbit .evqCtrl 0 fn = false) ∧ State.reset.cp.ctxs = [] ∧ State.reset.rnat .epoch = 0 ∧
  (∀ o i, State.reset.rnat .fence o i = 0) ∧
  (∀ p, State.reset.rnat .cells p = (if p = 0 then 0xFFFF else 0) ∧ State.reset.pstate p = (if p = 0 then 1 else 0)) ∧
  (∀ a ∈ allAccts, State.reset.balance a = (State.reset.budget a : Int)) ∧
  (∀ l, State.reset.linkState l = 1)

/-! ### Packets: control -/

/-- NOP, STEP_BEGIN and STEP_END of a dispatched packet complete (R32, R35, R47, R93).  FENCE_SIGNAL raises its fence to VALUE, completes with
the fence's value, and completes the waits it satisfies (R322); FENCE_WAIT completes at once where the fence stands at VALUE, else it waits, and
is refused with reason 1 when its time limit has passed (R323). -/
def Obligations.ControlPacketsComplete : Prop :=
  ∀ (s : State) (q c : Nat) (h : HostData) (x : Ctx),
    (s.begins 0x00 q c x → LeadsTo (.NOP q c h) s (s.finish x.id stDone 0)) ∧
    (s.begins 0x01 q c x → LeadsTo (.STEP_BEGIN q c h) s
      (((s.updStep x.sid fun st =>
          { st with admitted := true, key := (s.beginKey x).1, hasDl := (s.beginKey x).2, admitAt := s.now, epoch := w32 (s.rnat .epoch) }).finish
        x.id stDone (if (s.beginKey x).2 then w32 (s.beginKey x).1.toNat else 0xFFFFFFFF)).deadlineMiss x.sid)) ∧
    (∀ st, s.begins 0x02 q c x → s.step? x.sid = some st → (∀ y ∈ s.stepCtxs x.sid, y.id ≠ x.id → y.phase = .done) →
      (∀ r ∈ s.emb.reqs, r.sid ≠ x.sid) ∨ st.exchRun = true → LeadsTo (.STEP_END q c h) s (s.finish x.id stDone st.endDetail)) ∧
    (∀ (f : Reg) (v : Nat), s.begins 0x03 q c x → f = ⟨.fence, fenceOwner x.fn, fld (x.w 2) 0 6⟩ →
      v = max (s.rget f).toNat (x.a 4).toNat →
      LeadsTo (.FENCE_SIGNAL q c h) s (((s.rset f (w64 v)).finish x.id stDone (w32 v)).fenceRelease f)) ∧
    (s.begins 0x04 q c x → (x.a 4).toNat ≤ (s.rget (waitFence x)).toNat →
      LeadsTo (.FENCE_WAIT q c h) s (s.finish x.id stDone (w32 (s.rget (waitFence x)).toNat))) ∧
    (s.begins 0x04 q c x → (s.rget (waitFence x)).toNat < (x.a 4).toNat →
      LeadsTo (.FENCE_WAIT q c h) s
        (s.updCtx x.id fun y => { y with phase := .running, begunAt := s.now, work := .waits s.now 0 0 })) ∧
    (∀ since a b, s.waitsIn 0x04 q c x → x.work = .waits since a b → x.w 6 ≠ 0 → x.w 6 * 1000 ≤ ticks since s.now →
      LeadsTo (.FENCE_WAIT_TIMEOUT q c) s (s.finish (cmdId q c) stRefused 1))

/-! ### Packets: models, pages, memory -/

/-- MODEL_LOAD of a resident model completes with its slot count and bit 9; of an absent one it claims EMPTY slots, of its partition's
own group or of the pooled one, and copies the model in (R57, R58). -/
def Obligations.ModelLoadsClaimTheirSlots : Prop :=
  ∀ (s : State) (q c : Nat) (h : HostData) (x : Ctx) (k : Nat), s.begins 0x10 q c x → k = fld (x.w 2) 0 10 →
    s.evictAhead x k = false →
    (∀ m, s.model? x.ten k = some m → m.resident = true →
      LeadsTo (.MODEL_LOAD q c h) s (s.finish x.id stDone (w32 (sat 511 m.slots.length + 512)))) ∧
    (∀ t, s.model? x.ten k = none → s.isolated (x.part.getD 0) = true →
      (s.updCtx x.id fun y => { y with phase := .running }).claimSlots { x with phase := .running } x.ten k (x.part.getD 0 + 1) (x.w 3) (x.a 4) 0
        = some t →
      LeadsTo (.MODEL_LOAD q c h) s t) ∧
    (∀ t, s.model? x.ten k = none → s.isolated (x.part.getD 0) = false →
      slotsFor (x.w 3) ≤ (s.updCtx x.id fun y => { y with phase := .running }).pooledLimit x.id.q →
      slotsFor (x.w 3) ≤ (s.slotsIn 0 .empty).length + (s.slotsIn 0 .zeroing).length →
      (s.updCtx x.id fun y => { y with phase := .running }).claimSlots { x with phase := .running } x.ten k 0 (x.w 3) (x.a 4) 0 = some t →
      LeadsTo (.MODEL_LOAD q c h) s t)

/-- MODEL_PIN (R61), with no MODEL_EVICT of the model ahead of it: SUBOP 0 pins a resident model, SUBOP 1 unpins it; a pin that would take its
partition's pinned slots above PIN_MAX completes with ST_NO_RESOURCE, pins that stand are kept whatever PIN_MAX is; a model that is not resident is
refused with DETAIL 1; in an isolated partition it completes and changes nothing. -/
def Obligations.ModelPinsFollowTheirLimit : Prop :=
  ∀ (s : State) (q c : Nat) (h : HostData) (x : Ctx) (k p : Nat), s.begins 0x11 q c x → k = fld (x.w 2) 0 10 → p = x.part.getD 0 →
    s.evictAhead x k = false →
    (s.model? x.ten k = none → LeadsTo (.MODEL_PIN q c h) s (s.finish x.id stRefused 1)) ∧
    (∀ m, s.model? x.ten k = some m → m.resident = false → LeadsTo (.MODEL_PIN q c h) s (s.finish x.id stRefused 1)) ∧
    (∀ m, s.model? x.ten k = some m → m.resident = true → s.isolated p = true →
      LeadsTo (.MODEL_PIN q c h) s (s.finish x.id stDone 0)) ∧
    (∀ m, s.model? x.ten k = some m → m.resident = true → s.isolated p = false → x.sub = 1 →
      LeadsTo (.MODEL_PIN q c h) s
        ((s.withToy fun y => { y with models := y.models.set (x.ten, k) (some { m with pinned := false }) }).finish x.id stDone 0)) ∧
    (∀ m, s.model? x.ten k = some m → m.resident = true → s.isolated p = false → x.sub = 0 →
      m.pinned = true ∨ s.pinnedSlots p + m.slots.length ≤ s.rfld .toy 16 9 p →
      LeadsTo (.MODEL_PIN q c h) s
        ((s.withToy fun y => { y with models := y.models.set (x.ten, k) (some { m with pinned := true }) }).finish x.id stDone 0)) ∧
    (∀ m, s.model? x.ten k = some m → m.resident = true → s.isolated p = false → x.sub = 0 → m.pinned = false →
      s.rfld .toy 16 9 p < s.pinnedSlots p + m.slots.length → LeadsTo (.MODEL_PIN q c h) s (s.finish x.id stNoResource 0))

/-- MODEL_EVICT of a model that no earlier command names sends its slots to ZEROING; of an absent model it completes with DETAIL 1 (R62).  A slot in
ZEROING whose cell's clock runs becomes zero and EMPTY, or LOADING where a load has claimed it, and the loads that wait go on (R58, R63).  At the
64th boundary every model's use count is halved (R59). -/
def Obligations.ModelsLeaveTheirSlots : Prop :=
  ∀ (s : State) (q c : Nat) (h : HostData) (x : Ctx) (k : Nat) (m : Model),
    (s.begins 0x12 q c x → s.evictAhead x (fld (x.w 2) 0 10) = false → s.model? x.ten (fld (x.w 2) 0 10) = none →
      LeadsTo (.MODEL_EVICT q c h) s (s.finish x.id stDone 1)) ∧
    (s.begins 0x12 q c x → k = fld (x.w 2) 0 10 → s.evictAhead x k = false → s.model? x.ten k = some m → m.resident = true →
      (∀ y ∈ s.cp.ctxs.takeWhile fun y => y.id ≠ x.id, y.fn = x.fn → y.phase ≠ .done → s.handleOf y ≠ some k) →
      LeadsTo (.MODEL_EVICT q c h) s
        (((((s.withToy fun y => { y with models := y.models.set (x.ten, k) (some { m with pinned := false }) }).dropModel
          (x.ten, k) m).finish x.id stDone 0)).toyPump)) ∧
    (k < 256 → (s.toy.slots.get k).st = .zeroing → s.rfld .islStatus 0 12 (k / 16) ≠ 0 → LeadsTo (.TOYCHEST_SLOT_ZEROED k) s
      (s.withToy fun y =>
        { y with
          slots := y.slots.set k { s.toy.slots.get k with st := if (s.toy.slots.get k).owner = none then .empty else .loading }
          bytes := memZero y.bytes (524288 * k) 524288 }).toyPump) ∧
    (64 ≤ s.toy.boundaries → LeadsTo .TOY_USE_DECAY s
      (s.withToy fun y =>
        { y with
          boundaries := y.boundaries - 64
          models := y.models.mapV fun _ m => m.map fun m => { m with use := m.use / 2 } }))

/-- PAGE_ALLOC takes its pages, at once or with a wait for the zero engine (R213); PAGE_FREE removes its entries (R215); MEM_ZERO and
MEM_COPY begin slices on the engines of their ranges (R217). -/
def Obligations.PagePacketsComplete : Prop :=
  ∀ (s : State) (q c : Nat) (h : HostData) (x : Ctx) (n i : Nat), n = fld (x.w 2) 0 16 → i = fld (x.w 3) 0 15 →
    (∀ t l, s.begins 0x80 q c x → s.entsTaken x.fn i n = false →
      s.allocPages x.id (.map x.fn i false) (allocPart x) (x.a 4) (bit (x.w 2) 20) n = .ok (t, l) → t.claimsOf x.id = 0 →
      LeadsTo (.PAGE_ALLOC q c h) s ((t.updCtx x.id fun y => { y with phase := .running, work := .waits s.now 0 0 }).allocDone x 0)) ∧
    (∀ t l, s.begins 0x80 q c x → s.entsTaken x.fn i n = false →
      s.allocPages x.id (.map x.fn i false) (allocPart x) (x.a 4) (bit (x.w 2) 20) n = .ok (t, l) → t.claimsOf x.id ≠ 0 →
      LeadsTo (.PAGE_ALLOC q c h) s
        (t.updCtx x.id fun y => { y with phase := .running, work := .waits s.now (t.claimsOf x.id) 0 })) ∧
    (s.begins 0x81 q c x →
      (∀ j < n, (s.mem.maps.get (x.fn, i + j)).valid = true ∧ (s.mem.maps.get (x.fn, i + j)).sealed = false) →
      LeadsTo (.PAGE_FREE q c h) s
        (((List.range n).foldl (fun t j => t.unmapIf x.fn fun e => e == i + j) s).finish x.id stDone (w32 n)).areaGuard) ∧
    (s.begins 0x82 q c x → LeadsTo (.MEM_ZERO q c h) s
      (s.beginUnits x (.memZero (pageIsland (s.phys x.fn (offOf (x.a 4)) / pageSize))) (fld (x.w 6) 0 25))) ∧
    (s.begins 0x83 q c x → isDev (x.a 4) = true → LeadsTo (.MEM_COPY q c h) s
      (s.beginUnits x (s.copyEngine x.fn (x.a 4)) (x.w 8))) ∧
    (s.begins 0x83 q c x → isDev (x.a 4) = false → LeadsTo (.MEM_COPY q c h) s
      (s.beginUnits x (s.copyEngine x.fn (x.a 6)) (x.w 8)))

/-! ### The epoch -/

/-- EPOCH_OPEN empties the shadows and sets OPEN; EPOCH_ABANDON drops them and clears OPEN (R65); a 32-bit write of a register with RWE fields
stores them into the shadow while an epoch is open, and is counted and discarded otherwise (R7, R65).  An EPOCH_COMMIT that passes its checks sets
PENDING: with no affected partition it waits for the boundary, otherwise every affected partition is DRAINING (R67 to R71), and a drain that has
lasted the hold limit out is refused with reason 6 (R72). -/
def Obligations.EpochsOpenCommitAndEnd : Prop :=
  (∀ (s : State), s.reached 0 →
    (s.epochOpen = false → LeadsTo .EPOCH_OPEN s (({ s with rf := { s.rf with shadow := [] } }).rput .epochCtrl 0 0 1)) ∧
    (s.epochOpen = true → s.epochPending = false → LeadsTo .EPOCH_ABANDON s
      (({ s with rf := { s.rf with shadow := [], staged := s.rf.staged.filter fun e => !e.1.shadow } }).rput .epochCtrl 0 0 0)) ∧
    (∀ (o m : Nat) (r : Reg) (v : W64), s.through 0 o = true → o % 4 = 0 → (s.locAt 0 (o / 8 * 8)).wide = false → s.locAt 0 o = .reg r false →
      wrOf r.n = .rwe m → s.epochOpen = true → s.epochPending = false → LeadsTo (.RWE_WRITE o 4 v) s
        (let w := w64 ((s.shadowOf r).toNat - ((s.shadowOf r).toNat &&& m) + (v.toNat % 2 ^ 32 &&& m))
         { s with rf := { s.rf with shadow := assocSet s.rf.shadow r w } })) ∧
    (∀ (o m : Nat) (r : Reg) (v : W64), s.through 0 o = true → o % 4 = 0 → (s.locAt 0 (o / 8 * 8)).wide = false → s.locAt 0 o = .reg r false →
      wrOf r.n = .rwe m → s.epochOpen = false → LeadsTo (.RWE_WRITE o 4 v) s (s.radd32 .epochDiscards 0 0 1)) ∧
    (∀ cm, s.cpRuns = true → s.cp.commit = some cm → cm.drain = true → s.rnat .epochHold ≤ ticks cm.begun s.now →
      LeadsTo .EPOCH_HOLD_LIMIT_EXPIRY s (s.epochRefuse 6))) ∧
  (∀ (s s2 : State) (q c : Nat) (h : HostData) (x : Ctx), s.begins 0xF0 q c x → s.commitReason (x.w 2) = none →
    s2 = ((s.rput .epochCtrl 0 0 3).updCtx x.id fun y => { y with phase := .running, work := .waits s.now 0 0 }).withCp (fun p =>
      { p with commit := some ⟨x.id, s.now, s.nonAtomicChange, s.affectedParts, s.affectedParts.map fun k => (k, s.pstate k)⟩ }) →
    (s.nonAtomicChange = false → LeadsTo (.EPOCH_COMMIT q c h) s s2) ∧
    (s.nonAtomicChange = true → s.rnat .epochHold ≠ 0 →
      LeadsTo (.EPOCH_COMMIT q c h) s (s.affectedParts.foldl (fun t k => t.rput .pstate k 0 2) s2)))

/-! ### Packets: matrix work, layer records -/

/-- MATMUL and GATE_ONLY begin: the gate program is read and paid for, the model in use counts one more use, and the tiles of the output are
ready for arrays, with what the command took at its dispatch (R117 to R121, R127, R142). -/
def Obligations.MatrixPacketsMakeTheirTilesReady : Prop :=
  ∀ (s t u : State) (q c : Nat) (h : HostData) (x : Ctx) (prog : List W8) (n : Nat),
    n = (if x.a 12 = 0 then 0 else stackBytes (x.a 12) 64) → s.pay x n = (t, true) →
    u = t.meetOp x.fn (x.a 12) (if x.a 12 = 0 then 0 else 64) → u.gateProgram x h = .ok prog →
    (∀ m v, s.begins 0x20 q c x → bit (x.w 2) 10 = false → s.modelState x (fld (x.w 2) 0 10) = .ready m →
      x.w 3 + weightBytes x ≤ m.size →
      v = ((u.useModel x.ten (fld (x.w 2) 0 10)).updCap x.id fun k => { k with prog := prog }) →
      LeadsTo (.MATMUL q c h) s
        (v.updCtx x.id fun y => { y with phase := .running, begunAt := v.now, work := .tiles x.tileCount 0 [] false })) ∧
    (∀ v, s.begins 0x20 q c x → bit (x.w 2) 10 = true → v = (u.updCap x.id fun k => { k with prog := prog }) →
      LeadsTo (.MATMUL q c h) s
        (v.updCtx x.id fun y => { y with phase := .running, begunAt := v.now, work := .tiles x.tileCount 0 [] false })) ∧
    (∀ v, s.begins 0x21 q c x → v = (u.updCap x.id fun k => { k with prog := prog }) →
      LeadsTo (.GATE_ONLY q c h) s
        (v.updCtx x.id fun y => { y with phase := .running, begunAt := v.now, work := .tiles x.tileCount 0 [] false }))

/-- LAYER_SET reads a valid image and holds it for the period boundary (R140); LAYER_READ writes the 64 bytes of the record that it took at its
dispatch, and taking it with SUBOP 1 clears PROBE_AMAX and SAT_TOTAL (R141). -/
def Obligations.LayerPacketsComplete : Prop :=
  ∀ (s t : State) (q c : Nat) (h : HostData) (x : Ctx) (k : Nat), k = fld (x.w 2) 0 10 →
    (∀ img v, s.begins 0x22 q c x → s.pay x (stackBytes (x.a 4) 16) = (t, true) → v = t.meetOp x.fn (x.a 4) 16 →
      v.opRead x.fn h (x.a 4) 16 = .ok img → imageBad k img = none →
      LeadsTo (.LAYER_SET q c h) s
        (({ v with qn := { v.qn with pend := v.qn.pend ++ [PendLayer.mk x.id x.ten k img] } } : State).updCtx x.id fun y =>
          { y with phase := .running, work := .waits s.now 0 0 })) ∧
    (∀ u r, s.begins 0x23 q c x → s.cap? x.id = some r → s.pay x (stackBytes (x.a 4) 64) = (t, true) →
      t.opWrite x.fn (x.a 4) r.rec_.bytes = (u, none) →
      LeadsTo (.LAYER_READ q c h) s (u.finish x.id stDone 0)) ∧
    (∀ u r, x.op = 0x23 → u = s.onDispatch x → u.cap? x.id = some r →
      r.rec_ = s.layerRec x.ten k ∧
      u.layerRec x.ten k = (if x.sub = 1 then { s.layerRec x.ten k with probeAmax := 0, satTotal := 0 } else s.layerRec x.ten k)) ∧
    (x.op = 0x23 → ((s.onDispatch x).cap? x.id).isSome)

/-! ### Packets: tables and sequences -/

/-- TABLE_DEFINE of a valid descriptor takes the table's pages and holds it until they are zero, or completes at once (R155, R157); here a
table of a group of one device. -/
def Obligations.TableDefinitionsTakeTheirPages : Prop :=
  ∀ (s t u w : State) (q c : Nat) (h : HostData) (x : Ctx) (b : List W8) (ps : List Nat) (d : Desc) (nh nd : Nat) (w1 : State),
    s.begins 0x30 q c x → s.pay x (stackBytes (x.a 4) 64) = (t, true) → u = t.meetOp x.fn (x.a 4) 64 → u.opRead x.fn h (x.a 4) 64 = .ok b →
    ofBytes b &&& descReserved = 0 → (Desc.parse b).group = 1 → u.descOk (Desc.parse b) (groupAddr b) = true →
    u.emb.tabs.get (x.ten, fld (x.w 2) 0 10) = none → d = { Desc.parse b with members := [0] } →
    nh = cdiv d.t1 512 → nd = cdiv (16 * d.blocks) 2097152 →
    u.allocPages x.id (.dev x.ten) (x.part.getD 0) d.chans false (nh + nd + d.promo + d.repl) = .ok (w, ps) →
    w1 = (let sh : Shard :=
            { d := d, home := ps.take nh, dirPages := (ps.drop nh).take nd, promo := (ps.drop (nh + nd)).take d.promo
              repl := ps.drop (nh + nd + d.promo), defining := some x.id }
          w.withEmb fun e => { e with tabs := e.tabs.set (x.ten, fld (x.w 2) 0 10) (some sh) }) →
    (w1.claimsOf x.id = 0 → LeadsTo (.TABLE_DEFINE q c h) s (w1.tableReady x)) ∧
    (w1.claimsOf x.id ≠ 0 → LeadsTo (.TABLE_DEFINE q c h) s (w1.beginWait x 0 0))

/-- TABLE_RETIRE of a table that nothing names drops it, TABLE_FLUSH writes its dirty blocks back in slices, TABLE_STATS writes the
statistics (R158, R173, R181). -/
def Obligations.TablePacketsComplete : Prop :=
  ∀ (s : State) (q c : Nat) (h : HostData) (x : Ctx) (k : Nat) (sh : Shard), k = fld (x.w 2) 0 10 → s.tableFor x k = some sh →
    (s.begins 0x31 q c x → (s.startRetire x k).tableBusy x k = false → x.sub ≠ 1 →
      LeadsTo (.TABLE_RETIRE q c h) s
        ((((s.startRetire x k).dropTable x.ten k).finish x.id stDone 0).jobPump x.id)) ∧
    (s.begins 0x31 q c x → (s.startRetire x k).tableBusy x k = false → x.sub = 1 → sh.dirtyBlocks ≠ [] →
      LeadsTo (.TABLE_RETIRE q c h) s
        ((((s.startRetire x k).withEmb fun e =>
          { e with jobs := e.jobs ++ [⟨x.id, x.ten, k, sh.dirtyBlocks, 0, 0, 0, none⟩] }).beginUnits x (.memCopy 0)
            sh.dirtyBlocks.length).jobPump x.id)) ∧
    (s.begins 0x35 q c x → LeadsTo (.TABLE_FLUSH q c h) s
      (((s.withEmb fun e => { e with jobs := e.jobs ++ [⟨x.id, x.ten, k, sh.dirtyBlocks, 0, 0, 0, none⟩] }).beginUnits x (.memCopy 0)
        sh.dirtyBlocks.length).jobPump x.id)) ∧
    (∀ t u, s.begins 0x36 q c x → x.sub = 0 → s.pay x (stackBytes (x.a 4) (sh.statBytes s.now).length) = (t, true) →
      t.opWrite x.fn (x.a 4) (sh.statBytes s.now) = (u, none) → LeadsTo (.TABLE_STATS q c h) s (u.finish x.id stDone 0)) ∧
    (∀ t u l, s.begins 0x36 q c x → x.sub ≠ 0 → l = ((List.range 64).map fun i => toBytes 8 (sh.lastChan.get i)).flatten →
      s.pay x (stackBytes (x.a 4) l.length) = (t, true) → t.opWrite x.fn (x.a 4) l = (u, none) →
      LeadsTo (.TABLE_STATS q c h) s (u.finish x.id stDone 0))

/-- GATHER_POOL with bags of one length takes its place among the gathers and begins slices over its indices (R159 to R161); ROW_UPDATE reads
every index and TABLE_LOAD takes a run of rows, and both begin their slices (R177, R180). -/
def Obligations.GathersAndRowWritesBegin : Prop :=
  ∀ (s : State) (q c : Nat) (h : HostData) (x : Ctx) (sh : Shard),
    (∀ g n v l, s.begins 0x32 q c x → s.tableFor x (GatherOp.tab x) = some sh → s.gatherBad x sh.d (s.inStep x) = none → sh.d.group = 1 →
      0 < GatherOp.bagLen x → n = GatherOp.bags x * GatherOp.bagLen x → n ≤ 16777215 → (GatherOp.pool x = 0 → GatherOp.bagLen x = 1) →
      l = [⟨4, addrAdd (x.a 4) 0, 8 * n⟩] ++ (if GatherOp.pool x = 4 then [⟨8, addrAdd (x.a 8) 0, 4 * n⟩] else []) →
      s.check89 x.fn l = none → ignoresLayer (GatherOp.ofmt x) = true → g = s.emb.nextK →
      v = (s.withEmb fun e =>
        { e with
          nextK := g + 1
          gathers := e.gathers ++ [{ gid := g, x := x, offs := [], next := 0, rows := .of none, wts := .of 0, skip := [], remote := []
                                     fin := [], cap := MatCap.fresh 0 false none {} 0 [], done := false }] }) →
      LeadsTo (.GATHER_POOL q c h) s ((v.beginUnits x (.gather 0) n).gatherPump g h)) ∧
    (∀ t0 t bs rows n, s.begins 0x33 q c x → s.tableFor x (fld (x.w 2) 0 10) = some sh → n = fld (x.w 3) 0 17 →
      s.check89 x.fn [⟨6, x.a 6, n * sh.d.pitch⟩] = none → s.pay x (stackBytes (x.a 4) (8 * n)) = (t0, true) →
      t = t0.meetOp x.fn (x.a 4) (8 * n) → t.opRead x.fn h (x.a 4) (8 * n) = .ok bs → rows = (List.range n).map (fun i => natAt bs (8 * i) 8) →
      (∀ r ∈ rows, r < sh.d.rows ∧ (sh.d.group = 1 ∨ sh.d.ownerOf r = sh.d.self)) →
      LeadsTo (.ROW_UPDATE q c h) s
        ((t.withEmb fun e => { e with upds := e.upds ++ [⟨x.id, x.ten, fld (x.w 2) 0 10, .list (rows.map sh.d.localOf), 0, 0, x.begunAt⟩] }).beginUnits
          x (.gather 0) n)) ∧
    (∀ first e, s.begins 0x34 q c x → s.tableFor x (fld (x.w 2) 0 10) = some sh → first = (x.a 6).toNat % 2 ^ 40 →
      s.check89 x.fn [⟨4, x.a 4, x.w 3 * sh.d.pitch⟩] = none → first + x.w 3 ≤ sh.d.localRows sh.d.self →
      e = (if isDev (x.a 4) then s.copyEngine x.fn (x.a 4) else .memCopy 0) →
      LeadsTo (.TABLE_LOAD q c h) s
        ((s.withEmb fun m => { m with upds := m.upds ++ [⟨x.id, x.ten, fld (x.w 2) 0 10, .run first (x.w 3), 0, 0, x.begunAt⟩] }).beginUnits x e (x.w 3)))

/-- SEQ_DEFINE of a valid descriptor takes the family's pages and holds it until they are zero, or completes at once (R241). -/
def Obligations.FamilyDefinitionsTakeTheirPages : Prop :=
  ∀ (s t u w w1 : State) (q c : Nat) (h : HostData) (x : Ctx) (b : List W8) (ps : List Nat) (d : FamDesc),
    s.begins 0x40 q c x → s.pay x (stackBytes (x.a 4) 64) = (t, true) → u = t.meetOp x.fn (x.a 4) 64 → u.opRead x.fn h (x.a 4) 64 = .ok b →
    ofBytes b &&& famReserved = 0 → d = FamDesc.parse b → d.ok = true → u.seq.fams.get (x.ten, fld (x.w 2) 0 8) = none →
    u.famStreams d ≤ 4194304 →
    u.allocPages x.id (.dev x.ten) (x.part.getD 0) d.chans false (d.poolPages + cdiv (16 * d.streams) 2097152) = .ok (w, ps) →
    w1 = (let m : Fam := { d := d, pool := ps.take d.poolPages, dirPages := ps.drop d.poolPages, defining := some x.id }
          w.withSeq fun k => { k with fams := k.fams.set (x.ten, fld (x.w 2) 0 8) (some m) }) →
    (w1.claimsOf x.id = 0 → LeadsTo (.SEQ_DEFINE q c h) s (w1.famReady x)) ∧
    (w1.claimsOf x.id ≠ 0 → LeadsTo (.SEQ_DEFINE q c h) s (w1.beginWait x 0 0))

/-- SEQ_CHUNK at rest begins its tiles (R243, R244); SEQ_TOUCH of streams that are in marks them used and completes (R246, R251); SEQ_RETIRE
of a family nothing names drops it (R247). -/
def Obligations.SequencePacketsComplete : Prop :=
  ∀ (s : State) (q c : Nat) (h : HostData) (x : Ctx) (m : Fam),
    (∀ mod, s.begins 0x41 q c x → s.fam? x.ten (Chunk.famOf x) = some m → s.modelState x m.d.handle = .ready mod →
      m.d.offset + 16 * m.d.h * m.d.p + 4 * m.d.h ≤ mod.size →
      LeadsTo (.SEQ_CHUNK q c h) s ((s.useModel x.ten m.d.handle).updCtx x.id fun y =>
        { y with phase := .running, begunAt := s.now, work := .tiles (cdiv (Chunk.entries x) (Chunk.group x)) 0 [] false })) ∧
    (∀ u w f, s.begins 0x42 q c x → f = fld (x.w 2) 0 8 → s.fam? x.ten f = some m → s.touch? x.id = some w → w.fam = f → x.a 6 = 0 →
      s.pay x 0 = (u, true) → (∀ k ∈ w.list, (m.slots.get k).st ≠ .out) →
      LeadsTo (.SEQ_TOUCH q c h) s
        ((((w.list.foldl (fun t k => t.useSlot x.ten f k) u).beginWait x 0 0).withSeq fun k =>
          { k with touches := k.touches.map fun y => if y.id = x.id then { y with begun := true, streams := [], n := 0 } else y }).seqPump)) ∧
    (∀ f, s.begins 0x43 q c x → f = fld (x.w 2) 0 8 → s.fam? x.ten f = some m → s.famBusy x f = false → x.sub ≠ 1 →
      LeadsTo (.SEQ_RETIRE q c h) s ((s.dropFam x.ten f).finish x.id stDone 0)) ∧
    (∀ f, s.begins 0x43 q c x → f = fld (x.w 2) 0 8 → s.fam? x.ten f = some m → s.famBusy x f = false → x.sub = 1 → m.d.base ≠ 0 →
      m.dirtySlots ≠ [] →
      LeadsTo (.SEQ_RETIRE q c h) s
        ((s.updFam x.ten f fun k => { k with retiring := some x.id }).beginUnits x (.memCopy 0) m.dirtySlots.length))

/-! ### Packets: intake, locale, Exchange, Quisto -/

/-- A command of family 0x5 waits for its engine, whose first slice makes its checks: decode for INTAKE_DECODE and RNG_FILL, frame for
FRAME_CONVERT, locale for the others (R256). -/
def Obligations.IntakePacketsWaitForTheirEngines : Prop :=
  ∀ (s : State) (q c : Nat) (h : HostData) (x : Ctx),
    (s.begins 0x50 q c x → LeadsTo (.INTAKE_DECODE q c h) s (s.beginUnits x .decode 1)) ∧
    (s.begins 0x51 q c x → LeadsTo (.RNG_FILL q c h) s (s.beginUnits x .decode 1)) ∧
    (s.begins 0x52 q c x → LeadsTo (.FRAME_CONVERT q c h) s (s.beginUnits x .frame 1)) ∧
    (s.begins 0x53 q c x → LeadsTo (.LOCALE_PILLARS q c h) s (s.beginUnits x .locale 1)) ∧
    (s.begins 0x54 q c x → LeadsTo (.RULEBOOK_BUILD q c h) s (s.beginUnits x .locale 1)) ∧
    (s.begins 0x55 q c x → LeadsTo (.LOCALE_GATHER q c h) s (s.beginUnits x .locale 1))

/-- EXCHANGE opens one transfer for every device the requests of its step name, and completes when none is left (R195, R201); a transfer whose
return stays silent for TIMEOUT fails with cause 2 (R205). -/
def Obligations.ExchangesOpenTheirTransfers : Prop :=
  ∀ (s s0 s1 : State) (q c : Nat) (h : HostData) (x : Ctx) (devs : List Nat),
    (s.begins 0x60 q c x → s0 = (s.updStep x.sid fun k => { k with exchRun := true }) →
      devs = ((s.emb.reqs.filter fun r => r.sid = x.sid).map (·.dev)).dedup.mergeSort (· ≤ ·) →
      s1 = ((s0.withLnk fun n =>
        { n with
          nextX := s.lnk.nextX + devs.length
          xfers := n.xfers ++ (devs.zipIdx.map fun e =>
            { xid := s.lnk.nextX + e.2, sid := x.sid, fn := x.fn, part := x.part, q := x.id.q, dev := e.1, st := .waiting, link := none
              txn := 0, fwd := false, secs := s0.sectionsFor x.sid e.1, seg := [], sent := 0
              attempts := 0, resent := 0, got := .of none, block := [], blockNext := 0, ended := false, refused := [], cause := 0
              lastRx := s.now }) }).withEmb fun e => { e with reqs := e.reqs.filter fun r => r.sid ≠ x.sid }) →
      LeadsTo (.EXCHANGE q c h) s
        (((((List.range devs.length).foldl (fun t i => t.openXfer (s.lnk.nextX + i)) s1).withLnk fun n =>
          { n with exch := n.exch ++ [⟨x.sid, x.id, false, s.now, none⟩] }).updCtx x.id fun y =>
            { y with phase := .running, begunAt := s.now, work := .waits s.now 1 0 }).exchangePump x.sid h)) ∧
    (∀ (k : Nat) (y : Xfer), s.xfer? k = some y → y.st = .live → s.exchTimeout ≤ ticks y.lastRx s.now →
      LeadsTo (.EXCHANGE_TIMEOUT k h) s (s.failXfer k 2 h))

/-- SEAL_ALLOC takes its pages and begins a slice for each at the sealed-page port, SEAL_FREE removes its entries (R276); KEY_UPDATE draws the
new key and runs in the key store, and ends as the key store does (R301). -/
def Obligations.SealAndKeyPacketsComplete : Prop :=
  ∀ (s : State) (q c : Nat) (h : HostData) (x : Ctx) (n i : Nat), n = fld (x.w 2) 0 16 → i = fld (x.w 3) 0 15 →
    (∀ t l, s.begins 0x70 q c x → s.qst.update = none → s.entsTaken x.fn i n = false →
      s.allocPages x.id (.map x.fn i true) (allocPart x) (x.a 4) (bit (x.w 2) 20) n = .ok (t, l) →
      LeadsTo (.SEAL_ALLOC q c h) s
        ((t.beginUnits x (.sealPort 0) n).updCtx x.id fun y => { y with work := .units (.sealPort 0) n 0 0 (t.claimsOf x.id) 0 })) ∧
    (s.begins 0x71 q c x →
      (∀ j < n, (s.mem.maps.get (x.fn, i + j)).valid = true ∧ (s.mem.maps.get (x.fn, i + j)).sealed = true) →
      LeadsTo (.SEAL_FREE q c h) s
        (((List.range n).foldl (fun t j => t.unmapIf x.fn fun e => e == i + j) s).finish x.id stDone (w32 n))) ∧
    (∀ v t, s.begins 0x7E q c x → s.qst.update = none → s.anySealed = false → s.qst.fuse < 512 → s.entFailed 0 = false →
      s.drawMod (2 ^ 256) = (v, t) →
      LeadsTo (.KEY_UPDATE q c h) s
        ((t.withQst fun k => { k with
          update := some (x.id, BitVec.ofNat 256 v), reqs := k.reqs.set 0 1, seeded := k.seeded.set 0 t.now }).beginWait x 0 0)) ∧
    (∀ id srk f, s.qst.update = some (id, srk) → f = s.qst.fuse → LeadsTo (.KEY_UPDATE_COMPLETE .ok) s
      (((((s.withQst fun k => { k with update := none }).withQst fun k => { k with
          store := (k.store.set ((f + 1) % 2) ⟨srk, f + 1, true, false⟩).set (f % 2) KeySlot.erased, fuse := f + 1
          marginal := false }).keyStoreEvent).finish id stDone (w32 (f + 1))).keyWake)) ∧
    (∀ id srk f, s.qst.update = some (id, srk) → f = s.qst.fuse → LeadsTo (.KEY_UPDATE_COMPLETE .verifyFailed) s
      ((((s.withQst fun k => { k with update := none }).withQst fun k =>
        { k with store := k.store.set ((f + 1) % 2) KeySlot.erased }).finish id stFault 2).keyWake)) ∧
    (∀ id srk f, s.qst.update = some (id, srk) → f = s.qst.fuse → LeadsTo (.KEY_UPDATE_COMPLETE .fuseFailed) s
      ((((s.withQst fun k => { k with update := none }).withQst fun k =>
        { k with store := k.store.set ((f + 1) % 2) ⟨srk, f + 1, true, false⟩, marginal := true }).finish id stFault 3).keyWake))

/-- The Quisto commands of family 0x7 that make their checks at begin pass them and begin their slices on the unit chosen (R278 to R281). -/
def Obligations.QuistoPacketsBeginTheirSlices : Prop :=
  ∀ (s t u : State) (q c : Nat) (h : HostData) (x : Ctx) (l : List Nat) (ps : List QParam), s.qCheck x = .ok (t, l, ps) →
    u = (t.withQst fun k => { k with jobs := k.jobs ++ [QJob.mk x.id l ps false 0 0] }).beginUnits x (.quisto (s.unitOf x)) (qSlices x l ps) →
    (s.begins 0x72 q c x → LeadsTo (.QPARAM_SET q c h) s u) ∧ (s.begins 0x73 q c x → LeadsTo (.GATE_BATCH q c h) s u) ∧
    (s.begins 0x74 q c x → LeadsTo (.BASE_CONVERT q c h) s u) ∧ (s.begins 0x75 q c x → LeadsTo (.SHARE_OP q c h) s u) ∧
    (s.begins 0x76 q c x → LeadsTo (.TRIPLE_GEN q c h) s u) ∧ (s.begins 0x77 q c x → LeadsTo (.CURVE_OP q c h) s u) ∧
    (s.begins 0x78 q c x → LeadsTo (.HASH_TO_CURVE q c h) s u) ∧ (s.begins 0x79 q c x → LeadsTo (.QRNG_FILL q c h) s u) ∧
    (s.begins 0x7A q c x → LeadsTo (.KEY_AGREE q c h) s u) ∧ (s.begins 0x7B q c x → LeadsTo (.SHARE_EXPORT q c h) s u) ∧
    (s.begins 0x7C q c x → LeadsTo (.SHARE_IMPORT q c h) s u)

/-! ### Queues, event rings, registers -/

/-- DOORBELL (R28): by the first row of Table 02.3 that matches, an accepted write sets the tail, and a rejected one changes nothing in the queue,
is counted in TEN.DB_REJECT and raises DOORBELL_REJECTED with the reason.  `mine` is the queue the function's local index `i` names, if any. -/
def Obligations.DoorbellsAreJudged : Prop :=
  ∀ (s : State) (fn i size : Nat) (v : W64) (mine : Option Nat) (V : W32) (rej : Nat → Nat → State), s.reached fn → size = 4 ∨ size = 8 →
    mine = (match tenantOf fn with
      | some t => if i < (s.qRange t).2 then some ((s.qRange t).1 + i) else none
      | none => if s.owner i = 0 then some i else none) →
    V = w32 v.toNat →
    rej = (fun q r => (s.radd32 .dbReject fn 0 1).event fn
      { code := 0x0201, island := 28, queue := q, d0 := i, d1 := V.toNat, d2 := r }) →
    (size = 8 → v.toNat / 2 ^ 32 ≠ 0 → LeadsTo (.DOORBELL fn (8 * i) size v) s (rej (mine.getD 0xFFFF) 5)) ∧
    (size = 4 ∨ v.toNat / 2 ^ 32 = 0 →
      (mine = none → LeadsTo (.DOORBELL fn (8 * i) size v) s (rej 0xFFFF 4)) ∧
      (∀ q, mine = some q → (s.queue q).mode ≠ .running → LeadsTo (.DOORBELL fn (8 * i) size v) s (rej q 3)) ∧
      (∀ q, mine = some q → (s.queue q).mode = .running →
        (V = (s.queue q).tail → LeadsTo (.DOORBELL fn (8 * i) size v) s (s.updQueue q fun Q => { Q with tail := V })) ∧
        (V ≠ (s.queue q).tail → 2 ^ 31 ≤ (V - (s.queue q).tail).toNat → LeadsTo (.DOORBELL fn (8 * i) size v) s (rej q 1)) ∧
        ((V - (s.queue q).tail).toNat < 2 ^ 31 → V ≠ (s.queue q).tail → (s.queue q).entries < (V - (s.queue q).done).toNat →
          LeadsTo (.DOORBELL fn (8 * i) size v) s (rej q 2)) ∧
        ((V - (s.queue q).tail).toNat < 2 ^ 31 → (V - (s.queue q).done).toNat ≤ (s.queue q).entries →
          LeadsTo (.DOORBELL fn (8 * i) size v) s (s.updQueue q fun Q => { Q with tail := V })))) ∧
    (∀ q r, (rej q r).queue = s.queue)

/-- Enabling a DISABLED queue of a bound owner zeroes its counts and runs it, or faults it where its check fails; disabling stops its
fetching and leaves it DISABLED with nothing in flight, else STOPPING; PAUSE is written; a restart resumes a FAULTED queue (R23, R41, R42). -/
def Obligations.QueueControlsAct : Prop :=
  ∀ (s s1 : State) (fn q : Nat) (v : Bool), s.reached fn → s.runs 29 → q < 16384 → s.reaches fn q = true → s.qResetting q = false →
    (s1 = (s.updQueue q fun Q =>
        { Q with
          enable := true, mode := .running, cause := 0, head := 0, tail := 0, done := 0, reads := [], holds := [], openSid := none, grant := 0 }) →
      s.ownerBound q = true → (s.queue q).mode = .disabled →
      (s1.queueCheck q = none → LeadsTo (.QUEUE_ENABLE fn q) s s1) ∧
      (∀ c a, s1.queueCheck q = some (c, a) → LeadsTo (.QUEUE_ENABLE fn q) s (s1.faultQueue q c a))) ∧
    ((s.queue q).enable = true → ¬((s.queue q).mode = .faulted ∧ (s.queue q).cause = 2) →
      LeadsTo (.QUEUE_DISABLE fn q) s
        (State.drain 65 (s.updQueue q fun Q =>
          { Q with
            enable := false, reads := [], holds := [], cause := 0, grant := 0
            mode := if Q.inflight = 0 then .disabled else .stopping }).release q)) ∧
    LeadsTo (.QUEUE_PAUSE fn q v) s (s.updQueue q fun Q => { Q with pause := v }) ∧
    ((s.queue q).mode = .faulted → (s.queue q).cause ≠ 3 → (s.queue q).cause ≠ 4 →
      LeadsTo (.QUEUE_RESTART fn q) s (State.drain 65 (s.updQueue q fun Q => { Q with mode := .running, cause := 0 }) q)) ∧
    ((s.queue q).mode = .faulted → (s.queue q).cause = 3 ∨ (s.queue q).cause = 4 → s.queueCheck q = none →
      LeadsTo (.QUEUE_RESTART fn q) s (State.drain 65 (s.updQueue q fun Q => { Q with mode := .running, cause := 0 }) q))

/-- A range that overlaps no other tenant's, of a tenant without an active queue, is written (R21); an event ring whose size and base pass is
started, and its head moves forward to a value not past the tail (R39). -/
def Obligations.QueueRangesAndEventRingsAreSet : Prop :=
  ∀ (s : State) (fn k : Nat) (v : W32),
    (k < 64 → s.reached 0 →
      (∀ j < 64, j ≠ k → 0 < fld v.toNat 16 12 → 0 < (s.qRange j).2 →
        overlap (fld v.toNat 0 14) (fld v.toNat 16 12) (s.qRange j).1 (s.qRange j).2 = false) →
      (∀ e ∈ s.cp.queues.ents, s.owner e.1 = vf k → e.2.mode = .disabled) →
      (∀ p, s.tenPart k = some p → s.rfld .queues 0 14 p ≤ fld v.toNat 0 14 ∧
        fld v.toNat 0 14 + fld v.toNat 16 12 ≤ s.rfld .queues 0 14 p + s.rfld .queues 16 15 p) →
      LeadsTo (.QUEUE_RANGE_WRITE k v) s (s.rput .queueRange k 0 (fld v.toNat 0 14 + fld v.toNat 16 12 * 65536))) ∧
    (fn ≠ 0 → s.reached fn → s.runs 29 → s.rbit .evqCtrl 0 fn = false → 6 ≤ s.rfld .evqCtrl 8 5 fn → s.rfld .evqCtrl 8 5 fn ≤ 16 →
      s.ringOk fn (ringAddr (s.rget ⟨.evqBase, fn, 0⟩)) (32 * 2 ^ s.rfld .evqCtrl 8 5 fn) = true →
      LeadsTo (.EVQ_ENABLE fn) s (((s.rput .evqHead fn 0 0).rput .evqTail fn 0 0).rsetFld .evqCtrl 0 1 1 fn)) ∧
    (s.reached fn → s.runs 29 →
      (w32 (s.rnat .evqTail fn) - v).toNat ≤ (w32 (s.rnat .evqTail fn) - w32 (s.rnat .evqHead fn)).toNat →
      LeadsTo (.EVQ_HEAD_WRITE fn v) s (s.rput .evqHead fn 0 v.toNat))

/-- A 32-bit write of a register stores the fields its mask names, in the register or (of a PF write while an epoch is open) in its shadow copy, of a
read-only register nothing, or is the action the register stands for (R7, R65); of a register the PF and a VF both write, the PF's write of the same
tick stands (R368).  A 64-bit register is written whole, or by its halves: the lower is staged, the upper makes the write take effect (R10).  The
other words of BAR0 take their writes as their tables say; a configuration write sets the bits the device answers to (R355, R356, R383).  A write
that does not reach the device has no effect, and a read before READY answers zero outside the SAFE block (R343); configuration requests then
answer Request Retry Status (R343).  A read answers the register's value (R10), the identity of R1 and R352, or zeros for BAR2 (R27). -/
def Obligations.RegisterAccessesAct : Prop :=
  ∀ (s : State) (fn o : Nat) (r : Reg) (v : W64) (w : Nat) (h : HostData), fn ≤ 64 → w = v.toNat % 2 ^ 32 →
    (s.narrowAt fn o (.reg r false) →
      LeadsTo (.REGISTER_WRITE fn (.bar0 o 4) v h) s (s.regWrite fn r w h) ∧
      (r.n ≠ .chanState → r.n ≠ .windup →
        LeadsTo (.REGISTER_READ_LATCH fn (.bar0 o) 4) s (s.send (.readData fn (toBytes 4 ((s.rget r).toNat % 2 ^ 32)) false)))) ∧
    (s.wideAt fn o (.reg r true) →
      LeadsTo (.REGISTER_WRITE fn (.bar0 o 8) v h) s (({ s with rf := s.rf.unstage fn (.reg r true) }).regWrite fn r v.toNat h) ∧
      (∀ k u lo, k = (⟨fn, r, isRwe r.n⟩ : HalfKey) → wrOf r.n ≠ .ro → (isRwe r.n = true → s.epochOpen = true ∧ s.epochPending = false) →
        u = { s with rf := { s.rf with staged := Tab.drop k s.rf.staged } } →
        lo = (assoc? s.rf.staged k).getD (w32 (if isRwe r.n then s.shadowOf r else s.rget r).toNat) →
        LeadsTo (.REGISTER_WRITE fn (.bar0 o 4) v h) s { s with rf := { s.rf with staged := assocSet s.rf.staged k (w32 w) } } ∧
        (s.through fn (o + 4) = true →
          LeadsTo (.REGISTER_WRITE fn (.bar0 (o + 4) 4) v h) s (u.regWrite fn r (lo.toNat + w * 2 ^ 32) h))) ∧
      (wrOf r.n = .ro → LeadsTo (.REGISTER_WRITE fn (.bar0 o 4) v h) s s)) ∧
    ((s.vfShared r = false ∨ fn ≠ 0 ∧ s.pfWrote? (.inl r) = none → s.regWrite fn r w h = s.regPut fn r w h) ∧
      (s.vfShared r = true → s.regWrite 0 r w h = (s.regPut 0 r w h).notePf (.inl r) w) ∧
      (∀ p, s.vfShared r = true → fn ≠ 0 → s.pfWrote? (.inl r) = some p → s.regWrite fn r w h = (s.regPut fn r w h).regPut 0 r p h) ∧
      (wrOf r.n = .ro → s.regPut fn r w h = s) ∧
      (∀ m, wrOf r.n = .rw m → r.n ≠ .vecMod → s.regPut fn r w h = s.rput r.n r.i r.j (maskPut (s.rget r).toNat m w)) ∧
      (∀ m, wrOf r.n = .rw m → r.n = .vecMod → s.regPut fn r w h =
        (s.rput .vecMod r.i r.j (maskPut (s.rget r).toNat m w)).updVec r.i r.j fun x => x.noteOld s.now (s.vecMod r.i r.j)) ∧
      (∀ m, wrOf r.n = .rwe m →
        (fn ≠ 0 → s.regPut fn r w h = s) ∧
        (s.epochOpen = true → s.epochPending = false → s.regPut 0 r w h =
          { s with
            rf := { s.rf with shadow := assocSet s.rf.shadow r (w64 ((s.shadowOf r).toNat - ((s.shadowOf r).toNat &&& m) + (w &&& m))) } }) ∧
        ((s.epochOpen = true → s.epochPending = true) → s.regPut 0 r w h = s.radd32 .epochDiscards 0 0 1)) ∧
      (wrOf r.n = .act → s.regPut fn r w h = s.actWrite fn r w h)) ∧
    (∀ l, s.narrowAt fn o l →
      (l = .deviceReset → LeadsTo (.REGISTER_WRITE fn (.bar0 o 4) v h) s (s.softwareReset w)) ∧
      (∀ p, l = .schedCmd p → LeadsTo (.REGISTER_WRITE fn (.bar0 o 4) v h) s (if bit w 0 then s.rput .preemptMax p 0 0 else s)) ∧
      (l = .svn → LeadsTo (.REGISTER_WRITE fn (.bar0 o 4) v h) s (s.svnCommit (w % 128))) ∧
      (∀ f k n, l = .msix f k n → LeadsTo (.REGISTER_WRITE fn (.bar0 o 4) v h) s (s.msixWrite f k n w)) ∧
      (∀ q k, l = .queue q k → LeadsTo (.REGISTER_WRITE fn (.bar0 o 4) v h) s (s.queueWrite fn q k w))) ∧
    (∀ q k, s.wideAt fn o (.queue q k) → k = 0 ∨ k = 8 →
      LeadsTo (.REGISTER_WRITE fn (.bar0 o 8) v h) s (({ s with rf := s.rf.unstage fn (.queue q k) }).queueWrite fn q k v.toNat)) ∧
    (∀ q k, (s.owner q = 0 ∨ fn ≠ 0 ∧ s.pfWrote? (.inr (q, k)) = none → s.queueWrite fn q k w = s.queuePut fn q k w) ∧
      (s.owner q ≠ 0 → s.queueWrite 0 q k w = (s.queuePut 0 q k w).notePf (.inr (q, k)) w) ∧
      (∀ p, s.owner q ≠ 0 → fn ≠ 0 → s.pfWrote? (.inr (q, k)) = some p →
        s.queueWrite fn q k w = (s.queuePut fn q k w).queuePut 0 q k p)) ∧
    (s.cfgUp fn = true →
      LeadsTo (.REGISTER_WRITE fn .command v h) s (s.updFn fn fun f => { f with bme := bit w 2 }) ∧
      (∀ u, u = (s.updFn fn fun f => { f with msixEn := bit w 15, msixMask := bit w 14 }) →
        ((s.cp.fns.get fn).msixMask = false ∨ bit w 14 = true → LeadsTo (.REGISTER_WRITE fn .msixControl v h) s u) ∧
        ((s.cp.fns.get fn).msixMask = true → bit w 14 = false → LeadsTo (.REGISTER_WRITE fn .msixControl v h) s
          ((List.range (if fn = 0 then 64 else 32)).foldl (fun t k => t.unmask fn k) u))) ∧
      LeadsTo (.REGISTER_WRITE fn .devControl2 v h) s (s.updFn fn fun f => { f with cto := fld w 0 4, ctoDisable := bit w 4 }) ∧
      (fn = 0 → bit w 0 = true → LeadsTo (.REGISTER_WRITE fn .sriovControl v h) s (s.withWin fun x => { x with vfEnable := true })) ∧
      (fn = 0 → bit w 0 = false → LeadsTo (.REGISTER_WRITE fn .sriovControl v h) s s.vfEnableClear) ∧
      (fn = 0 → LeadsTo (.REGISTER_WRITE fn .ptmControl v h) s (s.withWin fun x => { x with ptmEnable := bit w 0 })) ∧
      (fn ≠ 0 → LeadsTo (.REGISTER_WRITE fn .sriovControl v h) s s ∧ LeadsTo (.REGISTER_WRITE fn .ptmControl v h) s s) ∧
      LeadsTo (.REGISTER_READ_LATCH fn (.config 8) 4) s (s.send (.readData fn [0x10, 0x00, 0x00, 0x12] false)) ∧
      LeadsTo (.REGISTER_READ_LATCH fn (.config 0) 4) s
        (s.send (.readData fn (if fn = 0 then [0x3C, 0x1F, 0x00, 0x16] else [0xFF, 0xFF, 0xFF, 0xFF]) false))) ∧
    (s.win.ready = false → s.win.rrs = true → s.rbit .windup 3 = false → s.win.held = false → s.runs 28 →
      LeadsTo (.REGISTER_WRITE fn .command v h) s (s.send (.retry fn)) ∧ ∀ k n, LeadsTo (.REGISTER_READ_LATCH fn (.config k) n) s (s.send (.retry fn))) ∧
    (∀ size, s.barUp fn = false → inSafe fn o = false →
      LeadsTo (.REGISTER_WRITE fn (.bar0 o size) v h) s s ∧
      (s.through fn o = true →
        LeadsTo (.REGISTER_READ_LATCH fn (.bar0 o) size) s (s.send (.readData fn (List.replicate size 0) false)))) ∧
    (∀ size, s.through fn o = false →
      LeadsTo (.REGISTER_WRITE fn (.bar0 o size) v h) s s ∧ LeadsTo (.REGISTER_READ_LATCH fn (.bar0 o) size) s s) ∧
    (∀ size, s.runs 28 →
      LeadsTo (.REGISTER_READ_LATCH fn (.bar2 o) size) s (s.send (.readData fn (List.replicate size 0) false)))

/-- An offset of BAR0 that holds no register (R367): an aligned read of it answers zero, an aligned write has no effect, of 32 or of 64 bits; an
access of another size or alignment does the same wherever it falls (R10). -/
def Obligations.EmptyOffsetsReadZeroAndTakeNoWrite : Prop :=
  ∀ (s : State) (fn o size : Nat) (v : W64) (h : HostData), fn ≤ 64 → s.barUp fn = true → s.through fn o = true →
    ((size = 4 ∧ o % 4 = 0 ∧ (s.locAt fn (o / 8 * 8)).wide = false ∧ s.locAt fn o = .empty) ∨
      (size = 8 ∧ o % 8 = 0 ∧ s.locAt fn o = .empty ∧ s.locAt fn (o + 4) = .empty) ∨ (size ≠ 4 ∧ size ≠ 8) ∨ o % size ≠ 0) →
    LeadsTo (.REGISTER_WRITE fn (.bar0 o size) v h) s s ∧
    ∃ t, LeadsTo (.REGISTER_READ_LATCH fn (.bar0 o) size) s t ∧ t = s.send (.readData fn (toBytes size 0) false)

/-- A read of the lower half of a 64-bit register latches the upper half, whatever happens to the register before the upper half is read: that
read then answers the latched value (R10). -/
def Obligations.UpperHalvesAreReadFromTheirLatch : Prop :=
  ∀ (s u : State) (fn o : Nat) (r : Reg), fn ≤ 64 → s.wideAt fn o (.reg r true) → u.wideAt fn o (.reg r true) → u.through fn (o + 4) = true →
    r.n ≠ .chanState → r.n ≠ .windup →
    ∃ t, LeadsTo (.REGISTER_READ_LATCH fn (.bar0 o) 4) s t ∧
      t.io = .readData fn (toBytes 4 ((s.rget r).toNat % 2 ^ 32)) false :: s.io ∧ t.rget r = s.rget r ∧
      (u.rf.latched = t.rf.latched → ∃ w, LeadsTo (.REGISTER_READ_LATCH fn (.bar0 (o + 4)) 4) u w ∧
        w.io = .readData fn (toBytes 4 ((s.rget r).toNat / 2 ^ 32)) false :: u.io)

/-- SCHED_CLR_MAX clears PREEMPT_MAX; FENCED bits are cleared by writing 1, but for one an event set in the same tick (R8, R306); a reset of the
one partition named begins (R317), of a FREE one nothing, and ends with the partition ACTIVE (R318), unless its bit was written again in the same
tick: then that write's reset begins (R8). -/
def Obligations.PartitionControlsAct : Prop :=
  ∀ (s : State) (p n : Nat) (v : W32),
    (s.reached 0 → p < 16 → LeadsTo (.SCHED_CLR_MAX p) s (s.rput .preemptMax p 0 0)) ∧
    (s.reached 0 → n < 16 →
      ∃ t, LeadsTo (.ARRAY_FENCE_CLEAR n v) s t ∧ (∀ a < 4, t.rbit .arrayFenced a n = (s.rbit .arrayFenced a n && (!bit v.toNat a || s.setThis .arrayFenced n a))) ∧
        ∀ r, r ≠ ⟨.arrayFenced, n, 0⟩ → t.rget r = s.rget r) ∧
    (s.reached 0 → p < 16 → (∀ b < 16, bit (v.toNat % 65536) b = decide (b = p)) → s.pstate p ≠ 0 →
      LeadsTo (.PART_RESET_WRITE v) s ((s.noteSet .partReset p 0).partReset p 2)) ∧
    (s.reached 0 → p < 16 → (∀ b < 16, bit (v.toNat % 65536) b = decide (b = p)) → s.pstate p = 0 → LeadsTo (.PART_RESET_WRITE v) s s) ∧
    (∀ t, p < 16 → s.pstate p = 4 → t = ((s.rput .pstate p 0 1).rput .partReset 0 0 (setFld (s.rnat .partReset) p 1 0)) →
      (s.setThis .partReset p 0 = false → LeadsTo (.PARTITION_RESET_COMPLETE p) s t.servesPump) ∧
      (s.setThis .partReset p 0 = true → LeadsTo (.PARTITION_RESET_COMPLETE p) s (t.partReset p 2)))

/-! ### Resets, the test port, Windup -/

/-- The resets that run Windup: by GLB.DEVICE_RESET, with the records of a quiesce first where it asks for them (R320, R348), by the host link, by
the management path, and by power-on (R348, R349).  A reset is in stage 1 and not READY; it keeps time, the fault log and the registers of R349, puts the other
registers at their Reset values, holds no command, and keeps the PCI Express state of the functions where the host link was not reset; the two
that may end a thermal trip end it where every sensor is cool (R340). -/
def Obligations.ResetsBeginWindup : Prop :=
  ∀ (s : State) (v : W32),
    (s.reached 0 → bit v.toNat 0 = false → LeadsTo (.SOFTWARE_RESET v) s s) ∧
    (s.reached 0 → bit v.toNat 0 = true → bit v.toNat 1 = false → LeadsTo (.SOFTWARE_RESET v) s (s.deviceReset true)) ∧
    (s.reached 0 → bit v.toNat 0 = true → bit v.toNat 1 = true → LeadsTo (.SOFTWARE_RESET v) s (s.quiesce.deviceReset true)) ∧
    (∀ u, u = (if s.cool then s.withPwr fun p => { p with tripped := false } else s) →
      LeadsTo .CONVENTIONAL_RESET s (u.deviceReset false) ∧
      (s.win.mgmtUp = true → LeadsTo (.MANAGEMENT_RESET 1) s (u.deviceReset true)) ∧
      (s.win.mgmtUp = true → s.win.ready = false ∨ s.cp.halted = true → LeadsTo (.MANAGEMENT_RESET 2) s (u.deviceReset true))) ∧
    (s.win.mgmtUp = true → s.win.ready = true → s.cp.halted = false →
      LeadsTo (.MANAGEMENT_RESET 2) s (s.quiesce.endTrip.deviceReset true)) ∧
    (∀ n, s.win.mgmtUp = false ∨ n ≠ 1 ∧ n ≠ 2 → LeadsTo (.MANAGEMENT_RESET n) s s) ∧
    (∀ u, u = (s.cp.ctxs.filter fun x => x.phase ≠ .done).foldl (fun t x => (t.releaseCtx x.id).mark x.id stDeviceReset 0) s →
      s.quiesce = (u.cp.queues.ents.map (·.1)).foldl (fun t q => if t.hostUp (t.owner q) then State.drain 65 t q else t) u) ∧
    (∀ cfg t, t = s.deviceReset cfg →
      t.win.ready = false ∧ t.stage = 1 ∧ t.rbit .windup 3 = false ∧ t.rfld .windup 16 1 = s.rfld .windup 16 1 ∧ t.now = s.now ∧
      t.io = s.io ∧ t.pending = s.pending ∧ t.safe = s.safe ∧ t.cp.ctxs = [] ∧ t.mem.bytes = s.mem.bytes ∧ t.mem.maps = Mem.reset.maps ∧
      (∀ r, keepsReset r.n = true → t.rget r = s.rget r) ∧
      (∀ r, keepsReset r.n = false → r.n ≠ .ptmStatus → r.n ≠ .brake → r.n ≠ .windup → t.rget r = regReset r) ∧
      t.win.vfEnable = (cfg && s.win.vfEnable) ∧ t.win.ptmEnable = (cfg && s.win.ptmEnable) ∧ t.win.rrs = !cfg ∧
      t.cp.fns = (if cfg then s.cp.fns else .of FnSt.reset)) ∧
    (∃ t, LeadsTo .POWER_ON_RESET s t ∧ t.win.ready = false ∧ t.win.mgmtUp = false ∧ t.stage = 1 ∧ t.now = 0 ∧ t.mem = Mem.reset ∧
      t.cp = Cp.reset ∧ t.safe = State.reset.safe ∧ t.rget ⟨.bootPrefer, 0, 0⟩ = s.rget ⟨.bootPrefer, 0, 0⟩ ∧
      (∀ r, r.n ≠ .bootPrefer → r.n ≠ .windup → t.rget r = regReset r) ∧ t.win.flash = s.win.flash ∧ t.win.svnMin = s.win.svnMin ∧
      t.qst.fuse = s.keyPowerLoss.qst.fuse)

/-- The TAP's boundary-scan instructions hold the device in reset; the others let it go, begin Windup again, and IDCODE shifts its code out
(R365). -/
def Obligations.TapInstructionsAct : Prop :=
  ∀ (s : State) (i : Tap),
    ((i = .extest ∨ i = .clamp ∨ i = .highz) → s.win.held = false →
      LeadsTo (.TEST_RESET i) s ((s.deviceReset false).withWin fun w => { w with tap := i, held := true })) ∧
    ((i = .extest ∨ i = .clamp ∨ i = .highz) → s.win.held = true →
      LeadsTo (.TEST_RESET i) s (s.withWin fun w => { w with tap := i })) ∧
    (¬(i = .extest ∨ i = .clamp ∨ i = .highz) → i ≠ .idcode →
      LeadsTo (.TAP_INSTRUCTION i) s
        (s.withWin fun w =>
          { w with
            tap := i, held := false, began := if w.held then s.now else w.began
            stageAt := if w.held then s.now else w.stageAt })) ∧
    LeadsTo (.TAP_INSTRUCTION .idcode) s
      ((s.withWin fun w =>
        { w with
          tap := .idcode, held := false, began := if w.held then s.now else w.began
          stageAt := if w.held then s.now else w.stageAt }).send (.tdo idcode))

/-- Windup's stages, each in its turn: the key store is read, the Safety Island starts, the slot BOOT_PREFER
names boots where its image verifies, else the other, else Windup fails, the stacks train and are
zero, the links train, the self-test runs, and the device is READY, every register at its Reset value but for those `keepsReady` names (R302,
R342 to R346; which they are is the model's reading of R344 and R349, assumption log 79). -/
def Obligations.WindupStagesEnd : Prop :=
  ∀ (s : State),
    (s.inStage 1 = true → (s.withQst Qst.fuseRead).qst.keyOk = true → LeadsTo (.FUSE_READ true) s ((s.withQst Qst.fuseRead).endStage 1)) ∧
    (s.inStage 2 = true → LeadsTo (.SAFE_START true) s ((s.endStage 2).withWin fun w => { w with mgmtUp := true })) ∧
    (∀ p r1 r2, s.inStage 3 = true → p = s.rfld .bootPrefer 0 1 → r1 = imageResult (s.image p) s.win.svnMin →
      r2 = (if r1 = 1 then 0 else imageResult (s.image (1 - p)) s.win.svnMin) →
      LeadsTo .SECURE_BOOT s
        (if r1 = 1 then (s.booted p (if p = 0 then r1 else r2) (if p = 0 then r2 else r1)).endStage 3
         else if r2 = 1 then (s.booted (1 - p) (if p = 0 then r1 else r2) (if p = 0 then r2 else r1)).endStage 3
         else (s.rput .bootStatus 0 0 ((if p = 0 then r1 else r2) + (if p = 0 then r2 else r1) * 16 + s.win.svnMin * 2 ^ 24)).windupFail 3
           ((if p = 0 then r2 else r1) * 16 + (if p = 0 then r1 else r2)) 17)) ∧
    (s.inStage 4 = true → LeadsTo (.STACK_TRAIN none) s ((s.withMem fun _ => Mem.reset).endStage 4)) ∧
    (∀ c < 64, s.inStage 4 = true → LeadsTo (.STACK_TRAIN (some c)) s (s.windupFail 4 c 5)) ∧
    (∀ u, s.inStage 5 = true →
      u = (List.range 16).foldl (fun t l => if t.rbit .lnkCtrl 0 l then t.startTraining l false else t)
        (s.rput .lnkDevice 0 0 (s.rfld .mgmtDevnum 0 16)) →
      LeadsTo (.LINK_TRAIN []) s (u.endStage 5)) ∧
    (∀ l good u, s.inStage 5 = true → l < 16 →
      u = (List.range 16).foldl (fun t l => if t.rbit .lnkCtrl 0 l then t.startTraining l false else t)
        (s.rput .lnkDevice 0 0 (s.rfld .mgmtDevnum 0 16)) →
      LeadsTo (.LINK_TRAIN [(l, good)]) s ((u.linkTrainingComplete l good).endStage 5)) ∧
    (∀ v0 v1 s1 s2, s.inStage 6 = true → s.free = (v0, s1) → s1.free = (v1, s2) →
      LeadsTo (.SELF_TEST [] true true) s
        (((((s2.seedDrbg 0).seedDrbg 1).withQst fun q => { q with nonce := BitVec.ofNat 128 (v0.toNat + v1.toNat * 2 ^ 64) }).endStage
          6).withWin fun w => { w with failed := [] })) ∧
    (s.inStage 7 = true → s.win.failed = [] →
      ∃ t, LeadsTo .READY s t ∧ t.win.ready = true ∧ (∀ r, keepsReady r.n = false → t.rget r = regReset r) ∧
        (∀ r, keepsReady r.n = true → r.n ≠ .windupTime → t.rget r = s.rget r) ∧ t.now = s.now ∧ t.mem = s.mem)

/-- Function-level resets.  Of one VF (R319): waits on its tenant's fences complete with ST_FLR, its commands and all its tenant holds go, its
registers return to their Reset values, its balance to 0, and TEN.RECOVERY tells how many commands ended; a drain that waits for its partition is
refused (R64, R319).  Of the PF (R350): that of every VF, then an open epoch ends, the PF's own state, its map and the NVMe enables go,
and VF Enable and PTM Enable are clear.  Clearing VF Enable is that of every VF (R383).  A request that meets a device in Windup after a conventional
reset answers Request Retry Status (R343). -/
def Obligations.FunctionResetsAct : Prop :=
  ∀ (s : State),
    (∀ s1 s2 s4, s.cfgUp 0 = true → s1 = (List.range 64).foldl State.flrVf s →
      (s2 = s1.abandonEpoch ∧ s1.cp.commit = none ∧ s1.epochOpen = true ∨ s2 = s1 ∧ s1.cp.commit = none ∧ s1.epochOpen = false ∨
        ∃ c, s1.cp.commit = some c ∧ s2 = (s1.undrain c).closeEpoch stRefused 7) →
      s4 = (((((s2.endFn 0).resetFn 0).unmapIf 0 fun _ => true).nvmeOff).toyPump).servesPump →
      LeadsTo .FLR_PF s (s4.withWin fun w => { w with vfEnable := false, ptmEnable := false })) ∧
    (∀ k s1 s3 s5, k < 64 → s.cfgUp (k + 1) = true →
      (s1 = s ∧ (∀ c p, s.cp.commit = some c → s.tenPart k = some p → (c.drain && c.affected.contains p) = false) ∨
        s1 = s.epochRefuse 7 ∧ ∃ c p, s.cp.commit = some c ∧ s.tenPart k = some p ∧ c.drain = true ∧ c.affected.contains p = true) →
      s3 = ((((s1.dropFences k).endFn (k + 1)).dropTenant k).resetFn (k + 1)) →
      s5 = (List.range 4).foldl (fun u j => u.rput .tenBalView k j 0)
        { s3 with rf := { s3.rf with vals := s3.rf.vals.filter fun e => !(tenReset e.1.n && e.1.i == k) } } →
      LeadsTo (.FLR_VF k) s
        (((s5.noteRecovery k stFlr (s.cp.ctxs.filter fun x => x.fn = k + 1 ∧ x.phase ≠ .done).length).servesPump).toyPump) ∧
      s.flrVf k = ((s5.noteRecovery k stFlr (s.cp.ctxs.filter fun x => x.fn = k + 1 ∧ x.phase ≠ .done).length).servesPump).toyPump) ∧
    (s.cfgUp 0 = true → s.win.vfEnable = true →
      LeadsTo .VF_ENABLE_CLEAR s (((List.range 64).foldl State.flrVf s).withWin fun w => { w with vfEnable := false })) ∧
    (s.cfgUp 0 = true → s.win.vfEnable = false → LeadsTo .VF_ENABLE_CLEAR s s) ∧
    (s.win.ready = false → s.win.rrs = true → s.rbit .windup 3 = false → s.win.held = false → s.runs 28 →
      LeadsTo .FLR_PF s (s.send (.retry 0)) ∧ LeadsTo .VF_ENABLE_CLEAR s (s.send (.retry 0)) ∧
      ∀ k < 64, LeadsTo (.FLR_VF k) s (s.send (.retry (k + 1))))

/-! ### Management, firmware -/

/-- SVN_MIN rises to the security version of the image that was booted (R347); an image comes into the slot not booted in consecutive pieces, is
verified, and is preferred at the next boot (R347, R363). -/
def Obligations.FirmwareIsUpdated : Prop :=
  ∀ (s : State) (v : W32) (len off got : Nat) (bs : List W8),
    (s.reached 0 → s.win.svnMin < v.toNat % 128 → v.toNat % 128 ≤ 64 → v.toNat % 128 = s.rfld .bootStatus 8 16 →
      LeadsTo (.SVN_COMMIT v) s
        ((s.withWin fun w => { w with svnMin := v.toNat % 128 }).rsetFld .bootStatus 24 8 (v.toNat % 128))) ∧
    (s.win.mgmtUp = true → len ≤ 8388608 → off + bs.length ≤ len → got = (if off = 0 then 0 else s.win.fwGot) → off = got →
      LeadsTo (.FIRMWARE_UPDATE_TRANSFER len off bs) s
        (s.withWin fun w =>
          { w with
            flash := w.flash.set s.otherSlot (some ((s.image s.otherSlot).take off ++ bs))
            fwLen := len, fwGot := off + bs.length, fwOk := false })) ∧
    (∀ r, s.win.mgmtUp = true → s.win.fwLen ≠ 0 → s.win.fwGot = s.win.fwLen → r = imageResult (s.image s.otherSlot) s.win.svnMin →
      LeadsTo .APPLY_COMPLETE s ((s.withWin fun w => { w with fwOk := decide (r = 1) }).send (.mgmt (toBytes 1 r)))) ∧
    (s.win.mgmtUp = true → s.win.fwOk = true →
      LeadsTo .ACTIVATE_FIRMWARE s
        ((s.rput .bootPrefer 0 0 s.otherSlot).withWin fun w => { w with fwOk := false, fwLen := 0, fwGot := 0 }))

/-- The management endpoint, once it responds: its endpoint ID is set (R362), a sensor answers its value (R363), the device number is written
(R364, R372), and a fault-log entry is read (R364). -/
def Obligations.ManagementAnswers : Prop :=
  ∀ (s : State) (v : Nat), s.win.mgmtUp = true →
    (1 ≤ v → v < 255 → LeadsTo (.MCTP_SET_ENDPOINT_ID v) s (s.withWin fun w => { w with eid := v })) ∧
    (∀ r, s.sensor v = some r → LeadsTo (.PLDM_SENSOR_READ v) s (s.send (.mgmt (toBytes 8 r)))) ∧
    (s.win.ready = false → LeadsTo (.MGMT_DEVNUM_WRITE v) s (s.rput .mgmtDevnum 0 0 (v % 65536))) ∧
    (s.win.ready = true → LeadsTo (.MGMT_DEVNUM_WRITE v) s ((s.rput .mgmtDevnum 0 0 (v % 65536)).linkDeviceWrite (v % 65536))) ∧
    (v < 256 → LeadsTo (.FAULT_LOG_READ v) s (s.send (.mgmt (toBytes 4 (s.rnat .logHead) ++ s.logEntry v))))

/-! ### Links -/

/-- ENABLE starts a link's training and clearing it disables the link, each with LINK_STATE; the device number is written where no transaction is
open; training that ends brings the link UP at the width its good lanes allow, FAILED where they allow none (of no good lane at all that is the
model's reading, assumption log 80), or UNTRAINED where a lane has no signal; an untrained link with a signal trains again; a link that is UP fails on its NAK limit, on 1,000 ticks without a good control flit, and on loss of lock (R187 to R189, R192). -/
def Obligations.LinksTrainAndFail : Prop :=
  ∀ (s : State) (l : Nat) (h : HostData), l < 16 →
    (s.reached 0 → s.rbit .lnkCtrl 0 l = false →
      LeadsTo (.LINK_ENABLE l) s (((s.rsetFld .lnkCtrl 0 1 1 l).startTraining l false).linkEvent l 5)) ∧
    (s.reached 0 → s.rbit .lnkCtrl 0 l = true →
      LeadsTo (.LINK_DISABLE l h) s (((s.rsetFld .lnkCtrl 0 1 0 l).linkDrop l 0 h).linkEvent l 5)) ∧
    (∀ v : W32, s.reached 0 → (∀ k < 16, s.txnsUsed k = []) → (∀ k < 16, s.linkState k ≠ 3) →
      LeadsTo (.LINK_DEVICE_WRITE v) s (s.rput .lnkDevice 0 0 (v.toNat % 65536))) ∧
    (∀ good w n, s.runs (24 + l / 4) → s.linkState l = 2 → good / 16 % 16 = 0 → trainWidth good (s.rbit .lnkCtrl 2 l) = some (w, n) →
      LeadsTo (.LINK_TRAINING_COMPLETE l good) s
        (((List.range 4).foldl (fun t m => t.showLane l m)
          (((s.rsetFld .lnkStatus 0 3 3 l).rsetFld .lnkStatus 3 4 w l).updLink l fun k =>
            { ({} : Link) with
              lanes := (List.range 4).foldl (fun t m => t.upd m fun a => a.trained (s.rnat .fecCorr l m)) k.lanes
              lastCtl := s.now, lane0 := n, trainAt := k.trainAt })).linkEvent l 4)) ∧
    (∀ good, s.runs (24 + l / 4) → s.linkState l = 2 → good / 16 % 16 = 0 → trainWidth good (s.rbit .lnkCtrl 2 l) = none →
      LeadsTo (.LINK_TRAINING_COMPLETE l good) s ((s.rsetFld .lnkStatus 0 3 4 l).linkEvent l 4)) ∧
    (∀ good, s.runs (24 + l / 4) → s.linkState l = 2 → good / 16 % 16 ≠ 0 →
      LeadsTo (.LINK_TRAINING_COMPLETE l good) s ((s.rsetFld .lnkStatus 0 3 1 l).updLink l fun k => { k with trainAt := s.now })) ∧
    (s.runs (24 + l / 4) → s.linkState l = 1 → s.rbit .lnkCtrl 0 l = true → 100000000 ≤ ticks (s.link l).trainAt s.now →
      LeadsTo (.LINK_REEXAMINE l true) s (s.startTraining l false)) ∧
    (s.runs (24 + l / 4) → s.linkState l = 1 → s.rbit .lnkCtrl 0 l = true → 100000000 ≤ ticks (s.link l).trainAt s.now →
      LeadsTo (.LINK_REEXAMINE l false) s (s.updLink l fun k => { k with trainAt := s.now })) ∧
    (s.runs (24 + l / 4) → s.linkState l = 3 → max 1 (s.rfld .lnkCtrl 8 4 l) ≤ (s.link l).nakCnt →
      LeadsTo (.LINK_RETRY_LIMIT l h) s (s.linkFail l 1 h)) ∧
    (s.runs (24 + l / 4) → s.linkState l = 3 → 1000 ≤ ticks (s.link l).lastCtl s.now →
      LeadsTo (.LINK_CONTROL_LOSS l h) s (s.linkFail l 2 h)) ∧
    (s.runs (24 + l / 4) → s.linkState l = 3 → LeadsTo (.LINK_LOCK_LOSS l h) s (s.linkFail l 3 h))

/-- A good flit in sequence is taken and acknowledged, a control flit acts, and a bad one is counted and rejected (R183 to R187); a transmit slot
sends retransmissions first, then a forwarded flit (R187, R202); a control slot sends one control flit (R185); an equalisation
interval ends for the lane of a link of width one (R190). -/
def Obligations.FlitsAreReceivedAndSent : Prop :=
  ∀ (s : State) (l : Nat) (bytes b : List W8) (places : List Nat) (h : HostData) (s2 : State), l < 16 → s.runs (24 + l / 4) →
    s.linkState l = 3 →
    (openFlit bytes = (some b, places) → s2 = (s.countFec l places).rxAcked l (rxAck b) → rxKind b = 1 → (rxFlit b).seq = (s2.link l).rxSeq →
      LeadsTo (.DATA_FLIT_RX l bytes h) s (s2.rxData l (rxFlit b) h)) ∧
    (openFlit bytes = (some b, places) → s2 = (s.countFec l places).rxAcked l (rxAck b) → rxKind b = 2 →
      LeadsTo (.CONTROL_FLIT_RX l bytes h) s (s2.rxControl l b h)) ∧
    (openFlit bytes = (none, places) → LeadsTo (.DATA_FLIT_RX l bytes h) s (((s.countFec l places).radd64 .badFlits l 0 1).reject l)) ∧
    ((s.link l).resend ≠ [] → LeadsTo (.FRAME_TRANSMIT l) s
      (((((s.link l).resend.take 16).foldl (fun t f => t.wire l f) s).updLink l fun x => { x with resend := x.resend.drop 16 }).radd64
        .lnkRetries l 0 ((s.link l).resend.take 16).length)) ∧
    (∀ e, (s.link l).resend = [] → ((s.link l).forward.find? fun e => decide (0 < s.room l e.2.cls)) = some e →
      LeadsTo (.FRAME_TRANSMIT l) s
        (((((s.sendFlit l e.2).updLink l fun x => { x with forward := x.forward.erase e }).radd64 .fwdFlits l 0 1)).freeBuf e.1 (e.2.cls + 2))) ∧
    (∃ t f, LeadsTo (.CONTROL_SLOT l) s t ∧ t.io = .flit l f :: s.io ∧ (t.link l).nak = false ∧ (t.link l).aborts = (s.link l).aborts.drop 1 ∧
      ∀ r, r.n ≠ .eqState → t.rget r = s.rget r) ∧
    (2 ^ s.rfld .eqCtrl 4 4 l ≤ (s.link l).eqCnt → s.rfld .lnkStatus 3 4 l = 1 → LeadsTo (.EQ_INTERVAL_END l) s
      (let n := (s.link l).lane0
       let c := s.rnat .fecCorr l n
       ((s.updLink l fun x => { x with lanes := x.lanes.upd n fun a => a.interval (c - a.base) c (s.rbit .eqCtrl 0 l) }).showLane l n).updLink l
         fun x => { x with eqCnt := 0 }))

/-! ### NVMe, MSI-X, host link -/

/-- The NVMe area is enabled over unsealed VALID entries, refused with NVME_STATE otherwise; a drive is enabled with its rings zeroed; its
presence is noted; a drive reaches the area and nothing else of BAR4; a completion entry completes its
operation (R358 to R361). -/
def Obligations.NvmeCommandsAct : Prop :=
  ∀ (s : State) (v : W32) (w : W64) (d : Nat) (on : Bool), d < 8 →
    (∀ i, s.reached 0 → i = fld v.toNat 0 15 → bit v.toNat 16 = true → s.areaOk i true = true →
      LeadsTo (.NVME_AREA_ENABLE v) s ((s.rput .nvmeCtrl 0 0 (setFld (s.rnat .nvmeCtrl) 0 15 i)).rsetFld .nvmeCtrl 16 1 1)) ∧
    (∀ i, s.reached 0 → i = fld v.toNat 0 15 → bit v.toNat 16 = true → s.areaOk i true = false →
      LeadsTo (.NVME_AREA_ENABLE v) s
        (((s.rput .nvmeCtrl 0 0 (setFld (s.rnat .nvmeCtrl) 0 15 i)).rsetFld .nvmeCtrl 16 1 0).nvmeEvent 1 0xFF)) ∧
    (∀ new, s.reached 0 → bit (s.rnat .nvmeCfg d) 0 = false → bit w.toNat 0 = true → s.rbit .nvmeCtrl 16 = true →
      1 ≤ fld w.toNat 2 7 → fld w.toNat 2 7 ≤ 64 → 1 ≤ fld w.toNat 9 10 → s.rnat .nvmeBar d ≠ 0 →
      new = setFld (w.toNat &&& 0xFFFF007FFFFE) 0 1 0 → (s.rput .nvmeCfg d 0 new).rbit .nvmeCtrl 16 = true →
      LeadsTo (.NVME_DRIVE_ENABLE d w) s
        ((((s.rput .nvmeCfg d 0 new).rput .nvmeCfg d 0 (new + 1)).zeroDrive d (fld w.toNat 2 7) (fld w.toNat 9 10 + 1)).withEmb fun e =>
          { e with nvq := e.nvq.keep fun k _ => !(k.1 = d), nvTurn := e.nvTurn.clear d })) ∧
    (s.reached 0 → LeadsTo (.NVME_DRIVE_ONLINE d on) s (s.rsetFld .nvmeCfg 1 1 (b01 on) d)) ∧
    (∀ rid off len wr, s.reached 0 → rid < 65536 → s.driveRid rid = true → s.withinArea off len = true →
      LeadsTo (.NVME_AREA_ACCESS rid off len wr) s (s.bar4 0 off len wr)) ∧
    (∀ rid off len wr, s.reached 0 → rid < 65536 → s.driveRid rid = true → s.withinArea off len = false →
      LeadsTo (.NVME_AREA_ACCESS rid off len wr) s (s.areaDeny len wr)) ∧
    (∀ y q n e s1 o h, s.runs 28 → s.mem.errs = [] → s.rbit .nvmeCtrl 16 = true → s.rbit .nvmeCfg 0 d = true → 1 ≤ y → y ≤ 64 → y ≤ s.qpairs d →
      q = s.emb.nvq.get (d, y) → n = (q.head + 1) % s.qdepth d →
      s.devRead 0 (s.areaAddr (33554432 + 16384 * (d * 64 + y - 1) + 16 * q.head)) 16 = .ok e →
      fld (natAt e 12 4) 16 1 = q.phase → fld (natAt e 12 4) 17 15 = 0 → q.late.contains (fld (natAt e 12 4) 0 16) = false →
      s1 = ((s.withEmb fun m =>
        { m with nvq := m.nvq.upd (d, y) fun v => { v with head := n, phase := if n = 0 then 1 - v.phase else v.phase } }).nvBell d y 1 n) →
      (s1.emb.far.find? fun o => o.k = fld (natAt e 12 4) 0 16 ∧ o.outstanding ∧ o.drive = d ∧ o.qp = some y) = some o → o.kind ≠ .read →
      LeadsTo (.NVME_COMPLETION d y h) s ((((((s1.leavePair o).farDone o []).farWaiting).embPump h).seqPump).exchangesPump h))

/-- A vector whose conditions are met sends its message: the pending count and bit clear and t_last is now; nothing is sent while a condition
fails (R86).  Unmasking clears the vector's mask bit and evaluates it at once (R87). -/
def Obligations.VectorsSendWhenTheirConditionsHold : Prop :=
  ∀ (s u : State) (fn v : Nat), fn ≤ 64 → v < (if fn = 0 then 64 else 32) →
    (s.win.ready = true → s.runs 28 → s.vecOpen fn v = true → s.vecDue fn v = true →
      ∃ t, LeadsTo (.MSIX_SEND fn v) s t ∧ (∃ a d, t.io = .msix fn v a d :: s.io) ∧ (t.cp.vecs.get (fn, v)).pend = 0 ∧
        (t.cp.vecs.get (fn, v)).pendBit = false ∧ (t.cp.vecs.get (fn, v)).tLast = some s.now ∧ t.rf = s.rf) ∧
    (s.win.ready = true → s.runs 28 → s.vecOpen fn v = false ∨ s.vecDue fn v = false → LeadsTo (.MSIX_SEND fn v) s s) ∧
    (s.reached fn → (s.cp.vecs.get (fn, v)).mask = true →
      u = ((s.updVec fn v fun x => { x with mask := false }).updVec fn v fun x => { x with unmasked := decide (0 < x.pend) }) →
      (u.vecOpen fn v = true → u.vecDue fn v = true → LeadsTo (.MSIX_UNMASK fn v) s (u.msixNow fn v)) ∧
      (u.vecOpen fn v = false ∨ u.vecDue fn v = false → LeadsTo (.MSIX_UNMASK fn v) s u))

/-- The host link (R351, R354, R356, R357): a change of rate, width or mode raises its event, and no change raises none; an error received is logged
and sends vector 34.  A dialog of precision time sets PTM_OFFSET; the first, with every queue disabled and the master ahead, steps the time base
to the master's, another slews it at a rate of at most 100; an offset above 1 ms and the tenth failed dialog in a row raise HOST_TIME; a step that
lands on a period boundary reaches it (that reading of R73 is the model's, assumption log 68); where none is due nothing happens.  A completion timeout ends the
read it names where the function's timeout has run (R42, R172, R253, R354).  While the link's clock is stopped nothing of this happens (R17). -/
def Obligations.HostLinkEventsAct : Prop :=
  ∀ (s : State),
    (s.runs 28 →
      (∀ rate width flit d, d = rate % 16 + width % 32 * 16 + b01 flit * 512 →
        (d ≠ s.win.hostLink → LeadsTo (.HOST_LINK_CHANGE rate width flit) s
          ((s.hostEvent 0x1601 d s.win.hostLink 0).withWin fun w => { w with hostLink := d })) ∧
        (d = s.win.hostLink → LeadsTo (.HOST_LINK_CHANGE rate width flit) s s)) ∧
      (∀ fn ≤ 64, LeadsTo (.PCIE_ERROR_RX fn true) s
        ((((s.send (.unsupported fn)).logFault { cls := 9, island := 28, action := 0 }).withWin fun w => { w with aerUnc := w.aerUnc + 1 }).cause
          0 34)) ∧
      (∀ fn ≤ 64, LeadsTo (.PCIE_ERROR_RX fn false) s
        (((s.logFault { cls := 9, island := 28, action := 0 }).withWin fun w => { w with aerUnc := w.aerUnc + 1 }).cause 0 34)) ∧
      (∀ (m o : W64) u s1 s2 s3 r, s.ptmDue = true → o = m - s.now → u = s.rset ⟨.ptmOffset, 0, 0⟩ o →
        r = max (-100) (min 100 (roundDiv o.toInt u.ptmMs)) →
        (s1 = { u.rsetFld .ptmStatus 0 1 1 with now := m } ∧ s.rbit .ptmStatus 0 = false ∧ s.allDisabled = true ∧ s.now.toNat ≤ m.toNat ∨
          s1 = (u.rsetFld .ptmStatus 0 1 1).rsetFld .ptmStatus 8 8 (BitVec.ofInt 8 r).toNat ∧
            (s.rbit .ptmStatus 0 = true ∨ s.allDisabled = false ∨ m.toNat < s.now.toNat)) →
        s2 = (s1.withWin fun w => { w with ptmFails := 0, ptmLast := some s1.now }) →
        s3 = (if 1000000 < o.toInt.natAbs then s2.hostEvent 0x1602 1 (o.toNat % 2 ^ 32) (o.toNat / 2 ^ 32) else s2) →
        LeadsTo (.PTM_DIALOG (some m)) s
          (if s3.now ≠ s.now ∧ s3.periods = true ∧ s3.now.toNat % 100000 = 0 then s3.boundary [] else s3)) ∧
      (s.ptmDue = true → s.win.ptmFails ≠ 9 →
        LeadsTo (.PTM_DIALOG none) s (s.withWin fun w => { w with ptmFails := w.ptmFails + 1, ptmLast := some s.now })) ∧
      (s.ptmDue = true → s.win.ptmFails = 9 →
        LeadsTo (.PTM_DIALOG none) s
          ((s.withWin fun w => { w with ptmFails := 10, ptmLast := some s.now }).hostEvent 0x1602 2 (s.rnat .ptmOffset % 2 ^ 32)
            (s.rnat .ptmOffset / 2 ^ 32))) ∧
      (∀ m, s.ptmDue = false → LeadsTo (.PTM_DIALOG m) s s) ∧
      (∀ q h, q < 16384 →
        (∀ r rest, (s.queue q).reads = r :: rest → s.ctoPast (s.owner q) r.at_ = true → LeadsTo (.COMPLETION_TIMEOUT (.ring q) h) s
          (s.logPcie.faultQueue q 1 (addrAdd (s.queue q).ringBase (64 * (r.first.toNat % (s.queue q).entries))))) ∧
        (∀ r rest, (s.queue q).reads = r :: rest → s.ctoPast (s.owner q) r.at_ = false → LeadsTo (.COMPLETION_TIMEOUT (.ring q) h) s s) ∧
        ((s.queue q).reads = [] → LeadsTo (.COMPLETION_TIMEOUT (.ring q) h) s s)) ∧
      (∀ k h o, (s.emb.far.find? fun o => o.k = k ∧ o.kind = .read ∧ o.outstanding ∧ o.qp = none) = some o →
        (s.ctoPast (vf o.ten) o.issued = true → LeadsTo (.COMPLETION_TIMEOUT (.far k) h) s
          ((((s.logPcie.farFailed o false 0).embPump h).seqPump).exchangesPump h)) ∧
        (s.ctoPast (vf o.ten) o.issued = false → LeadsTo (.COMPLETION_TIMEOUT (.far k) h) s ((s.seqPump).exchangesPump h))) ∧
      (∀ k h o, (s.seq.ops.find? fun o => o.k = k ∧ o.outstanding ∧ !o.out) = some o →
        (s.ctoPast (vf o.ten) o.issued = true → LeadsTo (.COMPLETION_TIMEOUT (.page k) h) s (s.pageInDone k none)) ∧
        (s.ctoPast (vf o.ten) o.issued = false → LeadsTo (.COMPLETION_TIMEOUT (.page k) h) s s))) ∧
    (s.clockOn 28 = false → (∀ r w f, LeadsTo (.HOST_LINK_CHANGE r w f) s s) ∧ (∀ m, LeadsTo (.PTM_DIALOG m) s s) ∧
      (∀ q h, q < 16384 → LeadsTo (.COMPLETION_TIMEOUT (.ring q) h) s s) ∧ ∀ fn ≤ 64, ∀ ur, LeadsTo (.PCIE_ERROR_RX fn ur) s s)

/-! ### Fetch and dispatch, time -/

/-- A fetch turn issues a read on the next eligible queue of the next group in rotation (R43), a read that returns brings its packets (R44), or
faults the queue where its queue range fails parity (R309), the next command of a queue whose conditions hold is dispatched (R47), and a hold that lasts its threshold out raises BACKPRESSURE once (R49). -/
def Obligations.FetchAndDispatchGoOn : Prop :=
  ∀ (s : State) (q : Nat) (h : HostData), s.cpRuns = true → q < 16384 →
    (∀ g qs, s.cp.halted = false → s.readsOut < 256 → qs = (s.cp.queues.ents.map (·.1)).filter s.eligible →
      nextAfter s.cp.rotGroup (qs.map s.fetchGroup) = some g →
      nextAfter (s.cp.rotQueue.get g) (qs.filter fun q => s.fetchGroup q = g) = some q →
      LeadsTo .FETCH_TURN s ((s.turnOn q).withCp fun c => { c with rotGroup := g, rotQueue := c.rotQueue.set g q })) ∧
    (∀ r rest b, s.cp.halted = false → (s.queue q).reads = r :: rest → isDev ((s.queue q).slotAddr r.first) = false →
      s.opRead (s.owner q) h ((s.queue q).slotAddr r.first) (64 * r.n) = .ok b →
      LeadsTo (.FETCH_READ_RETURN q ⟨false, h⟩) s
        (State.acceptAll (s.updQueue q fun Q => { Q with reads := rest }) q h
          ((List.range r.n).map fun i => packetWords (sliceB b (64 * i) 64)))) ∧
    (∀ r rest, s.cp.halted = false → (s.queue q).reads = r :: rest → isDev ((s.queue q).slotAddr r.first) = false →
      LeadsTo (.FETCH_READ_RETURN q ⟨true, h⟩) s
        ((s.logFault { cls := 14, island := 29, action := 0, queue := q, tenant := whoOf (s.owner q) }).faultQueue q 1
          ((s.queue q).slotAddr r.first))) ∧
    (∀ x, s.nextFetched q = some x → fenceAhead (earlier (s.qCtxs q) x) = false → beginAhead (earlier (s.qCtxs q) x) = false →
      s.abortedFor x = false → waitsMet x (earlier (s.qCtxs q) x) = true →
      (x.op ∉ [0x20, 0x21, 0x23, 0x41, 0x42] →
        LeadsTo (.COMMAND_DISPATCH q) s (s.updCtx x.id fun y => { y with phase := .dispatched, begunAt := s.now })) ∧
      (x.op = 0x42 → (s.touch? x.id).isSome = true →
        LeadsTo (.COMMAND_DISPATCH q) s (s.updCtx x.id fun y => { y with phase := .dispatched, begunAt := s.now })) ∧
      (x.op = 0x41 → s.seqReady x.id = true →
        LeadsTo (.COMMAND_DISPATCH q) s (s.updCtx x.id fun y => { y with phase := .dispatched, begunAt := s.now })) ∧
      (x.op = 0x23 →
        LeadsTo (.COMMAND_DISPATCH q) s ((s.updCtx x.id fun y => { y with phase := .dispatched, begunAt := s.now }).layerTake x)) ∧
      (∀ t, x.op = 0x20 ∨ x.op = 0x21 →
        (s.updCtx x.id fun y => { y with phase := .dispatched, begunAt := s.now }).matCapture x = .ok t → LeadsTo (.COMMAND_DISPATCH q) s t)) ∧
    (∀ x, s.nextFetched q = some x → fenceAhead (earlier (s.qCtxs q) x) = false → beginAhead (earlier (s.qCtxs q) x) = false →
      s.abortedFor x = true → LeadsTo (.COMMAND_DISPATCH q) s (s.finish x.id stRefused 0)) ∧
    (∀ p k hd, s.queuePart q = some p → ((s.queue q).holds.find? fun h => h.cause = k) = some hd → hd.raised = false →
      s.rnat .bpThresh p k ≠ 0 → s.rnat .bpThresh p k ≤ ticks hd.since s.now →
      LeadsTo (.BACKPRESSURE_THRESHOLD q k) s
        ((s.updQueue q fun Q => { Q with holds := Q.holds.map fun j => if j.cause = k then { j with raised := true } else j }).event
          (s.owner q) { code := 0x0202, island := 29, queue := q, d0 := k, d1 := ticks hd.since s.now % 2 ^ 32, d2 := p }))

/-- The period boundary and the control interval let time run to the next multiple of 100,000 and of 10,000 ticks, and do what falls there (R73,
R329), a recount of the accounts that disagrees logged (R309), and the temperatures read in any case (R18, R328); a partition's sketch is halved when
its boundaries are full (R166). -/
def Obligations.PeriodicRowsAct : Prop :=
  ∀ (s t : State) (ts : List ChanTemp), tempsOk ts = true →
    (t = s.elapse (s.ticksTo 100000) → t.now.toNat % 100000 = 0 →
      (t.periods = true → LeadsTo (.PERIOD_BOUNDARY ⟨ts, false⟩) s (t.boundary ts)) ∧
      (t.periods = true → s.periods = true →
        LeadsTo (.PERIOD_BOUNDARY ⟨ts, true⟩) s ((t.boundary ts).logFault { cls := 14, island := 33, action := 0 })) ∧
      (t.periods = false → ∀ b, (b = true → s.periods = false) → LeadsTo (.PERIOD_BOUNDARY ⟨ts, b⟩) s (ts.foldl State.chanTemp t))) ∧
    (∀ mw rs, readsOk rs = true → t = s.runTo (s.ticksTo 10000) ts →
      LeadsTo (.CONTROL_INTERVAL mw rs ts) s (t.controlInterval mw rs)) ∧
    (∀ p n, p < 16 → n = 2 ^ (s.rfld .rcAdmit 29 3 p + 1) → n ≤ s.emb.decay.get p →
      ∃ u, LeadsTo (.SKETCH_DECAY p) s u ∧ u.emb.decay.get p = s.emb.decay.get p - n ∧ u.rf = s.rf ∧ u.mem = s.mem)

/-! ### Arrays and engines -/

/-- An array at a tile boundary runs the self-test that claimed it, or the tile of the step its partition's order chooses (R97, R110). -/
def Obligations.ArraysTakeWork : Prop :=
  ∀ (s : State) (k p : Nat) (h : HostData), k < 64 → (s.arr k).fly = none → s.fenced k = false → s.cp.halted = false →
    s.rfld .islStatus 0 12 (k / 4) ≠ 0 → s.en.due = [] →
    ((s.arr k).claim = true ∨ (s.arr k).again = true → s.mayTest k = true → s.pass [.bg 0] (s.reserveNs (k / 4)) = true →
      LeadsTo (.TILE_DISPATCH k h) s ((s.preempt k 3).startTest k)) ∧
    (∀ s1 x o s3 y,
      (s.mayTest k = true ∧ (s.arr k).claim = false ∧ (s.arr k).again = false ∧ s.roundClaim k = (false, s1)) ∨
        (s.mayTest k = false ∧ s1 = s) →
      s1.cellPart (k / 4) = some p → (∀ c ∈ s1.tileCands p, s1.admits p (k / 4) c.1 = true) →
      s1.chooseTile p (s1.arr k).lastSid (s1.tileCands p) = some (x, o) →
      s3 = (s1.preemptFor k x.sid).updCtx x.id (fun y => match y.work with
        | .tiles n _ f w => { y with work := .tiles n (o + 1) f w }
        | _ => y) →
      s3.ctx? x.id = some y →
      LeadsTo (.TILE_DISPATCH k h) s (s3.startTile k y o 1 (!s1.arrayPass (k / 4) x) false h))

/-- A tile whose checksum matches commits its outputs once they are paid for, and is abandoned to a retry or to the fault policy where a
detector of Table 06.9 finds an error (R100, R102, R130 to R133); a tile that reaches 8,000 on its watchdog is abandoned (R101); the Feeder
fills a region of the running tile's streams in their order, and of the lookahead's where the tile wants none (R231, R233). -/
def Obligations.TilesEnd : Prop :=
  ∀ (s : State) (k : Nat) (f : Flight) (h : HostData), k < 64 → (s.arr k).fly = some f →
    (∀ id ord att x e er s0 m t, f.ready = true → f.ran ≤ 8000 → s.rfld .islStatus 0 12 (k / 4) ≠ 0 → f.job = .tile id ord att →
      s.ctx? id = some x → e = s.tileEnd x f ord er → e.found = none →
      s.payPart x.stackAccts 64 (s.commitBytes x ord e - f.paid) (whoOf x.fn) x.part = (s0, m) → s.commitBytes x ord e ≤ f.paid + m →
      (if x.op = 0x41 then s0.seqCommit x h e.seqs else s0.putAll x.fn h e.out) = (t, none) →
      LeadsTo (.TILE_COMMIT k er h) s
        ((((((t.noteEnd k x.fn e).settle (k / 4) (k % 4) f.charge f.ran).updArr k fun r =>
          { r with fly := none, lastSid := some x.sid }).radd32 .tilesCommitted (k / 4) (k % 4) 1).noteConv x (isWide x) e.stats).tileDone
            x ord (k / 4))) ∧
    (∀ id ord att x e er found, f.ready = true → f.ran ≤ 8000 → s.rfld .islStatus 0 12 (k / 4) ≠ 0 → f.job = .tile id ord att →
      s.ctx? id = some x → e = s.tileEnd x f ord er → e.found = some found →
      LeadsTo (.TILE_COMMIT k er h) s ((s.noteEnd k x.fn e).tileMismatch k x ord att found)) ∧
    (∀ er, f.ready = true → f.ran ≤ 8000 → s.rfld .islStatus 0 12 (k / 4) ≠ 0 → f.job = .selftest →
      LeadsTo (.TILE_COMMIT k er h) s (s.testDone k er.clean)) ∧
    (∀ id ord att x, 8000 ≤ f.ran → f.job = .tile id ord att →
      ((s.abandon k).radd32 .tileWatchdog (k / 4) (k % 4) 1).ctx? id = some x →
      LeadsTo (.TILE_WATCHDOG_EXPIRY k) s
        ((((s.abandon k).radd32 .tileWatchdog (k / 4) (k % 4) 1).updArr k fun a => { a with lastSid := some x.sid }).tilePolicy k x ord att 2 2)) ∧
    (∀ id ord att x reg t l, s.runs (k / 4) → f.job = .tile id ord att → s.ctx? id = some x → f.streams.any Stream.wants = true →
      windows f.streams ≤ 960 → s.freeRegion k = some reg → s.fillFirst (k / 4) reg x h f.streams = (t, l, none) →
      LeadsTo (.FEEDER_REGION_FILLED k [] h) s ((t.updArr k fun a => { a with fly := some { f with streams := l } }).advanceTile k)) ∧
    (∀ id ord att x, s.runs (k / 4) → f.job = .tile id ord att → s.ctx? id = some x → f.streams.any Stream.wants = false →
      LeadsTo (.FEEDER_REGION_FILLED k [] h) s (s.fillLook k h)) ∧
    (s.runs (k / 4) → f.job = .selftest → LeadsTo (.FEEDER_REGION_FILLED k [] h) s (s.fillLook k h))

/-- A slice that ends is committed, its engine is free and takes the next item (R108, R109); a self-test round that lasts 40 ms is logged (R84); a
real-time step whose deadline passes raises DEADLINE_MISS once (R239). -/
def Obligations.SlicesAndDeadlinesEnd : Prop :=
  ∀ (s : State),
    (∀ e n ok h id, engineOk e = true → s.rfld .islStatus 0 12 (engIsland e) ≠ 0 → (s.eng e).job = some id →
      LeadsTo (.SLICE_END e n ok h) s (((s.commitSlice e id n ok h).updEng e fun g => { g with job := none, slice := none }).takeItem e h)) ∧
    (∀ e n ok h, engineOk e = true → s.rfld .islStatus 0 12 (engIsland e) ≠ 0 → (s.eng e).job = none →
      (s.eng e).bg = false ∨ s.bgWaits e = false →
      LeadsTo (.SLICE_END e n ok h) s ((s.updEng e fun g => { g with bg := false }).takeItem e h)) ∧
    (s.periods = true → s.en.roundLogged = false → 40000000 ≤ ticks s.en.roundAt s.now →
      LeadsTo .SELFTEST_ROUND_OVERRUN s
        ((s.withEn fun e => { e with roundLogged := true }).logFault
          { cls := 16, island := 33, action := 0, late := true
            loc := cellLoc (((List.range 64).find? fun k => !s.en.roundDone.contains k && !s.fenced k).getD 0) })) ∧
    (∀ sid st, s.cpRuns = true → s.step? sid = some st → st.explicit = true → st.rt = true → st.hasDl = true → st.admitted = true →
      st.missRaised = false → st.ended = none → s.passed st.key = true → (s.stepCtxs sid).filter (fun x => decide (x.phase ≠ .done)) = [] →
      tenantOf st.fn = none →
      LeadsTo (.DEADLINE_MISS sid) s
        ((s.updStep sid fun k => { k with missRaised := true }).event st.fn
          { code := 0x1101, island := 29, queue := st.q, stepId := st.stepId, d0 := 0, d1 := 0
            d2 := sat (2 ^ 32 - 1) (st.stalls.foldl (fun n v => n + v.toNat) 0) })) ∧
    (∀ sid st x rest c k, s.cpRuns = true → s.step? sid = some st → st.explicit = true → st.rt = true → st.hasDl = true → st.admitted = true →
      st.missRaised = false → st.ended = none → s.passed st.key = true →
      (s.stepCtxs sid).filter (fun x => decide (x.phase ≠ .done)) = x :: rest → s.stallCause x = some c → tenantOf st.fn = some k →
      LeadsTo (.DEADLINE_MISS sid) s
        (((s.updStep sid fun k => { k with missRaised := true }).event st.fn
          { code := 0x1101, island := 29, queue := st.q, stepId := st.stepId, d0 := c + 16 + sat 65535 (x :: rest).length * 65536
            d1 := x.id.c.toNat, d2 := sat (2 ^ 32 - 1) (st.stalls.foldl (fun n v => n + v.toNat) 0) }).radd32 .rtMisses k 0 1))

/-! ### Tables, slots, memory -/

/-- A row read of a gather delivers its row to its bag; the reads and write-backs of a far tier complete, and fail when they have been out for the time limit
(R169 to R172, R253). -/
def Obligations.RowAndFarOperationsComplete : Prop :=
  ∀ (s : State) (k : Nat) (h : HostData),
    (∀ r sh l bs gid j, s.mem.errs = [] → r.repl = none → (s.emb.reads.find? fun r => r.k = k ∧ !r.far) = some r → s.table? r.ten r.tab = some sh →
      sh.loc (r.row / sh.d.rpb) = some l → s.rowAt sh r.row = some (.ok bs) → r.for_ = .gather gid j →
      LeadsTo (.ROW_READ_COMPLETE k [] h) s
        (((((((s.stat r.ten r.tab 2 1).updTab r.ten r.tab fun x =>
          { x with chan := x.chan.upd (chanOf (4096 * l)) (· + 1), blk := x.blk.upd (r.row / sh.d.rpb) (· + 1) }).rowArrived r sh.d bs).gatherPump
            gid h)).servesPump).exchangesPump h)) ∧
    (∀ o bs, s.runs 28 → (s.emb.far.find? fun o => o.k = k ∧ o.kind = .read ∧ o.outstanding ∧ o.qp = none) = some o →
      LeadsTo (.FAR_READ_COMPLETE k (some bs) h) s (((((s.farArrived o (sliceB bs 0 4096)).farWaiting).embPump h).seqPump).exchangesPump h)) ∧
    (∀ o, s.runs 28 → (s.emb.far.find? fun o => o.k = k ∧ o.kind = .read ∧ o.outstanding ∧ o.qp = none) = some o →
      LeadsTo (.FAR_READ_COMPLETE k none h) s ((((s.logPcie.farFailed o false 0).embPump h).seqPump).exchangesPump h)) ∧
    (∀ o, s.runs 28 → (s.emb.far.find? fun o => o.k = k ∧ o.kind = .write ∧ o.outstanding ∧ o.qp = none) = some o →
      LeadsTo (.FAR_WRITEBACK_COMPLETE k h) s (((((s.farWrote o).farWaiting).embPump h).seqPump).exchangesPump h)) ∧
    (∀ o, s.runs 28 → (s.emb.far.find? fun o => o.k = k ∧ o.outstanding ∧ (o.kind ≠ .write ∨ o.qp.isSome)) = some o →
      s.farTimeout o.part ≤ ticks o.issued s.now →
      LeadsTo (.FAR_TIMEOUT k h) s
        ((((((((s.leavePair o).owed o).farFailed o true 0).farWaiting).embPump h).opTimedOut k).seqPump).exchangesPump h)) ∧
    (∀ o, s.runs 28 → (s.emb.far.find? fun o => o.k = k ∧ o.outstanding ∧ (o.kind ≠ .write ∨ o.qp.isSome)) = none →
      (s.seq.ops.find? fun o => o.k = k ∧ o.outstanding ∧ o.data.isNone) = some o → s.farTimeout o.part ≤ ticks o.issued s.now →
      LeadsTo (.FAR_TIMEOUT k h) s ((((s.opFailed o true).seqPump).seqPump).exchangesPump h))

/-- A block move whose block kept its version switches the directory to the copy, made line by line, poisoned lines copied as poisoned (R175, R224;
the cause that MEM_POISON shows for those the spec leaves open, and is a free value: assumption log 3); a window that ends plans the moves of a table (R174);
replicas not validated for 100 ms go (R200). -/
def Obligations.PlacementRowsAct : Prop :=
  ∀ (s : State) (k : Nat),
    (∀ m sh e, (s.emb.moves.find? fun m => m.k = k) = some m → e = Engine.memCopy (pageIsland (m.src / 512)) →
      s.runs (16 + pageIsland (m.src / 512)) → (s.eng e).job = none → (s.eng e).bg = true → s.table? m.ten m.tab = some sh →
      (∀ i < 64, s.heldCause (64 * m.src + i) = none ∧ s.heldCause (64 * m.dst + i) = none) → (sh.dir.get m.blk).version = m.version →
      LeadsTo (.BLOCK_MOVE_COPY_DONE k) s
        (((((((List.range 64).foldl (fun t i => t.moveLine m.src m.dst i) (s.meetPhys (4096 * m.src) 4096)).withEmb fun e =>
          { e with moves := e.moves.filter fun q => q.k ≠ k }).updDir
            m.ten m.tab m.blk fun q => { q with loc := some m.dst, migrating := false }).stat m.ten m.tab 9 1).updEng e fun g =>
              { g with bg := false, last := 65 }).takeItem e [])) ∧
    (∀ src dst i, s.linePoison (64 * src + i) = true →
      s.moveLine src dst i = (let f := (s.radd32 .poisonReads (chanOf (64 * (64 * src + i))) 0 1).free
                              f.2.poisonLine (64 * dst + i) (f.1.toNat % 256))) ∧
    (∀ src dst i, s.linePoison (64 * src + i) = false → s.heldCause (64 * dst + i) = none →
      s.mem.tagErrs.contains ((64 * dst + i) / 32768) = false → s.rbit .chanState 16 (chanOf (64 * (64 * dst + i))) = false →
      s.moveLine src dst i = s.withMem fun x =>
        { x with
          bytes := memPuts x.bytes (64 * (64 * dst + i)) (memGets x.bytes (64 * (64 * src + i)) 64)
          errs := x.errs.filter fun e => e.line != 64 * dst + i
          poison := x.poison.filter fun l => l != 64 * dst + i
          plist := x.plist.filter fun l => l != 64 * dst + i }) ∧
    (s.emb.winDue = true → s.emb.tabs.ents = [] →
      LeadsTo .PLACEMENT_WINDOW_END s (State.startMoves 4096 (s.withEmb fun e => { e with winDue := false }))) ∧
    (∀ key sh, s.emb.winDue = true → s.emb.tabs.ents = [(key, some sh)] → sh.defining = none →
      LeadsTo .PLACEMENT_WINDOW_END s
        (State.startMoves 4096 ((s.withEmb fun e => { e with winDue := false }).windowShard key sh))) ∧
    (∃ t, LeadsTo .REPLICA_EXPIRY s t ∧ t.rf = s.rf ∧ t.mem = s.mem ∧
      ∀ r, r ∈ t.emb.replicas ↔ r ∈ s.emb.replicas ∧ ticks r.validated s.now < 100000000)

/-- The first SEQ_CHUNK that waits takes its slots where its family has the space (R250); a page-in puts the record into the pool and the slot is
CLEAN, a page-out leaves it OUT (R250, R252); a page that
no command claimed is zero and FREE when the zero engine is done with it (R216). -/
def Obligations.SlotAndPageEventsComplete : Prop :=
  ∀ (s : State) (k : Nat),
    (∀ q c ch m need ins s2, packetOk q c = true → s.cpRuns = true → s.chunk? (cmdId q c) = some ch → s.fam? ch.ten ch.fam = some m →
      ch.acquired = false → ((s.seq.chunks.find? fun k => k.ten = ch.ten ∧ k.fam = ch.fam ∧ !k.acquired).map (·.id)) = some (cmdId q c) →
      m.d.paging = 0 → need = (ch.ents.filter fun e => (m.slots.get e.1.stream).entry.isNone).map (·.1.stream) → need.length ≤ m.free →
      ins = (ch.ents.filter fun e =>
        (m.slots.get e.1.stream).st = .out && (m.slots.get e.1.stream).entry.isNone && !e.1.reset).map (·.1.stream) →
      s2 = ((s.updFam ch.ten ch.fam fun k =>
        let k1 := need.foldl Fam.take k
        { k1 with slots := ch.ents.foldl (fun sl e => sl.upd e.1.stream fun z =>
            { z with pins := z.pins ++ [cmdId q c], st := if ins.contains e.1.stream then .pagingIn else z.st }) k1.slots }).withSeq fun v =>
          { v with chunks := v.chunks.map fun k => if k.id = cmdId q c then { k with acquired := true, pageIns := ins.length } else k }) →
      LeadsTo (.SEQ_SLOT_ACQUIRE q c) s ((ins.foldl (fun t k => t.addPageOp ch.ten ch.fam k false) s2).seqPump)) ∧
    (∀ o bs, s.runs 28 → (s.seq.ops.find? fun o => o.k = k ∧ o.outstanding ∧ !o.out ∧ o.data.isNone) = some o →
      LeadsTo (.SLOT_PAGE_IN_DONE k (some bs)) s ((s.updOp k fun p => { p with data := some bs }).seqPump)) ∧
    (∀ o m bs t, (s.seq.ops.find? fun o => o.k = k ∧ o.data.isSome) = some o → s.fam? o.ten o.fam = some m → o.data = some bs →
      s.payOp o m.d.rs = (t, true) → t.recHeld m ((m.slots.get o.stream).entry.getD 0) = none →
      s.pageInGo k = ((((t.recWrite m ((m.slots.get o.stream).entry.getD 0) (sliceB bs 0 m.d.rs)).radd32 .seqPageIns o.ten 0 1).updSeqSlot
        o.ten o.fam o.stream fun z => { z with st := .clean }).endOp k)) ∧
    (∀ o, s.runs 28 → (s.seq.ops.find? fun o => o.k = k ∧ o.outstanding ∧ o.out) = some o →
      LeadsTo (.SLOT_PAGE_OUT_DONE k true) s
        (((((s.radd32 .seqPageOuts o.ten 0 1).updFam o.ten o.fam fun m =>
          if (m.slots.get o.stream).pins ≠ [] then { m with slots := m.slots.upd o.stream fun z => { z with st := .clean } }
          else ({ m with slots := m.slots.upd o.stream fun z => { z with st := .out } }).release o.stream).endOp k).seqPump))) ∧
    (∀ p rest t, k < 8 → s.runs (16 + k) → s.mem.dirty.get k = p :: rest → s.pass [.bg 3] (512 * 4096 - s.mem.zeroPaid.get k) = true →
      (s.mem.pages.get p).claim = none → (∀ r ∈ s.mem.retry, r.line / 32768 ≠ p) → s.mem.quiesce.contains (p / 768) = false →
      (s.eng (.memZero k)).job = none → (s.eng (.memZero k)).bg = true → t = s.zeroOne k →
      LeadsTo (.ZERO_ENGINE_PAGE_DONE k) s
        ((t.updEng (.memZero k) fun g => { g with bg := false, last := 65 }).takeItem (.memZero k) []) ∧
      t.mem.bytes = memZero s.mem.bytes (pageSize * p) pageSize ∧ (t.mem.pages.get p).st = .free ∧ t.mem.dirty.get k = rest ∧
      t.mem.zeroPaid.get k = 0 ∧ ∀ l, l / 32768 = p → t.mem.poison.contains l = false ∧ t.mem.plist.contains l = false)

/-- A parity failure is counted and tried again, a success ends its retries, and the last failure exhausts them; what waited for the line then goes
on (R219, R220); a lane repair ends the channel's quiesce and is logged
(R221); a scrub reads the next line in service and moves on (R226). -/
def Obligations.MemoryEventsAct : Prop :=
  ∀ (s : State) (line lane : Nat) (wr : Bool) (who : Option (Nat × Nat)) (c : Nat),
    (line < 64 * 768 * 32768 → lane < 64 → s.runs (16 + chanOf (line * 64) / 8) →
      LeadsTo (.MEM_PARITY_RETRY line lane wr true who) s
        (s.withMem fun m => { m with retry := m.retry.filter fun r => r.line ≠ line }).unheld) ∧
    (∀ r u, line < 64 * 768 * 32768 → lane < 64 → s.runs (16 + chanOf (line * 64) / 8) → (s.mem.retry.find? fun r => r.line = line) = some r →
      r.left = 0 → u = (((s.radd32 .parErr (chanOf (line * 64)) 0 1).laneFailure line lane).withMem fun m =>
        { m with retry := m.retry.filter fun r => r.line ≠ line }) →
      (r.write = true → LeadsTo (.MEM_PARITY_RETRY line lane wr false who) s
        (u.writeExhausted line (who.map fun w => cmdId w.1 w.2)).unheld) ∧
      (r.write = false → LeadsTo (.MEM_PARITY_RETRY line lane wr false who) s
        (u.readExhausted line (who.map fun w => cmdId w.1 w.2)).unheld)) ∧
    (line < 64 * 768 * 32768 → lane < 64 → s.runs (16 + chanOf (line * 64) / 8) → (s.mem.retry.find? fun r => r.line = line) = none →
      s.rfld .ifPolicy 0 3 (chanOf (line * 64) / 8) ≠ 0 →
      LeadsTo (.MEM_PARITY_RETRY line lane wr false who) s
        (((((s.radd32 .parErr (chanOf (line * 64)) 0 1).laneFailure line lane).withMem fun m =>
          { m with retry := m.retry.filter fun r => r.line ≠ line }).radd32 .retries (chanOf (line * 64)) 0 1).withMem fun m =>
            { m with retry := ⟨line, s.rfld .ifPolicy 0 3 (chanOf (line * 64) / 8) - 1, wr⟩ :: m.retry })) ∧
    (c < 64 → s.runs (16 + c / 8) → s.mem.quiesce.contains c = true →
      LeadsTo (.LANE_REPAIR_DONE c) s
        ((((s.withMem fun m => { m with quiesce := m.quiesce.filter (· ≠ c) }).rsetFld .chanState 11 5
          (s.rfld .chanState 11 5 c - 1) c).chanError c 6).logFault { cls := 5, island := 16 + c / 8, action := 0, loc := c }).unheld) ∧
    (∀ p, c < 64 → s.runs (16 + c / 8) → s.rbit .scrub 16 (c / 8) = true → s.mem.scrubCnt.get c < s.rfld .scrub 0 16 (c / 8) →
      p = s.inService c 768 (s.mem.scrubPos.get c) → s.mem.scrubPos.get c ≤ p → p + 1 < chanLines → s.heldCause (chanLines * c + p) = none →
      LeadsTo (.SCRUB_READ c []) s ((s.meetLine (chanLines * c + p)).withMem fun x =>
        { x with
          scrubPos := x.scrubPos.set c ((p + 1) % chanLines)
          scrubCnt := x.scrubCnt.upd c (· + 1) }))

/-! ### Power, safety -/

/-- The power cap is written, takes effect 1 ms later, throttles every cell when the bottom of every range is not enough, and is reported as unmet
(R334, R336). -/
def Obligations.PowerCapRowsAct : Prop :=
  ∀ (s : State) (v : W32),
    (s.reached 0 → ∃ t, LeadsTo (.CAP_WRITE v false) s t ∧ t.rnat .cap = v.toNat % 2048 ∧ t.rbit .capStatus 8 = true ∧
      t.rbit .capStatus 9 = false ∧ t.pwr.capAt = some (s.now + 1000000)) ∧
    (s.win.mgmtUp = true → ∃ t, LeadsTo (.CAP_WRITE v true) s t ∧ t.rnat .cap = v.toNat % 2048 ∧ t.rbit .capStatus 8 = true ∧
      t.rbit .capStatus 9 = true ∧ t.pwr.capAt = some (s.now + 1000000)) ∧
    (∀ t, s.pwr.capAt = some t → reached s.now t = true →
      LeadsTo .CAP_EFFECTIVE s (((s.rsetFld .capStatus 8 1 0).withPwr fun p => { p with capAt := none }).capEvent 1)) ∧
    (s.pwr.escal = false → 10 ≤ s.pwr.overBot →
      LeadsTo .CAP_ESCALATION s ((List.range 16).foldl (fun u k => u.demand k 0 3) (s.withPwr fun p => { p with escal := true }))) ∧
    (s.pwr.escal = true → 10 ≤ s.pwr.under →
      LeadsTo .CAP_ESCALATION s ((List.range 16).foldl (fun u k => u.demand k 0 0) (s.withPwr fun p => { p with escal := false }))) ∧
    (s.rbit .capStatus 7 = false → 100 ≤ s.pwr.above → LeadsTo .CAP_UNMET_CHANGE s ((s.rsetFld .capStatus 7 1 1).capEvent 2)) ∧
    (s.rbit .capStatus 7 = true → 100 ≤ s.pwr.met → LeadsTo .CAP_UNMET_CHANGE s ((s.rsetFld .capStatus 7 1 0).capEvent 3))

/-- A demand that has fallen for 100 µs decays by one level, a stop window ends, a hot stack asks for level 3 after 1 ms and 4 after 2, the brake's
edge is reported and acts, and a thermal trip stops every island but SAFE (R330, R331, R338 to R340). -/
def Obligations.ThrottlingRowsAct : Prop :=
  ∀ (s : State) (k src : Nat) (low : Bool),
    (k < 33 → src < 5 → (s.isl k).want.get src < (s.isl k).dem.get src → 100000 ≤ ticks ((s.isl k).fall.get src) s.now →
      LeadsTo (.THROTTLE_DEMAND_DECAY k src) s
        ((s.updIsl k fun j => { j with dem := j.dem.upd src (· - 1), fall := j.fall.set src s.now }).relevel k (s.isl k).level)) ∧
    (∀ t, k < 33 → (s.isl k).win = some t → s.dutyTicks ≤ ticks t s.now →
      LeadsTo (.THROTTLE_STOP_WINDOW_END k) s ((s.updIsl k fun i => { i with win := none }).showIsl k)) ∧
    (∀ t, k < 16 → (s.isl k).heat = some t → 2000000 ≤ ticks t s.now → LeadsTo (.STACK_HEAT_ESCALATE k) s (s.demand k 2 4)) ∧
    (∀ t, k < 16 → (s.isl k).heat = some t → 1000000 ≤ ticks t s.now → ticks t s.now < 2000000 →
      LeadsTo (.STACK_HEAT_ESCALATE k) s (s.demand k 2 3)) ∧
    (s.rbit .brake 3 ≠ low → LeadsTo (.BRAKE_EDGE low) s
      (((s.rsetFld .brake 3 1 (b01 low)).event 0 { code := 0x1503, island := 33, d0 := b01 low, d1 := s.rfld .brake 0 3 }).applyBrake)) ∧
    (s.pwr.tripped = false → LeadsTo .THERMAL_TRIP s
      (((List.range 33).foldl State.showIsl ((s.withPwr fun p => { p with tripped := true }).withCp fun c => { c with halted := true })).logFault
        { cls := 13, island := 33, action := 7 }))

/-- A droop stops its island's clock, and a recovery within its bound restarts it, a cell's tiles replayed (R112, R332); a clock or voltage fault
stops the clock where CLK_STOP is set, is logged in any case, and ends 1 ms later (R308); a lockstep mismatch halts the CP where that is armed
(R307). -/
def Obligations.ClockFaultRowsAct : Prop :=
  ∀ (s : State) (k : Nat), k < 33 →
    ((s.isl k).droop = none → LeadsTo (.DROOP_DETECT k) s ((s.updIsl k fun i => { i with droop := some s.now }).showIsl k)) ∧
    (∀ t, (s.isl k).droop = some t → 200 ≤ ticks t s.now → ticks t s.now ≤ 10200 → 16 ≤ k →
      LeadsTo (.DROOP_RESTART k false) s (((s.radd32 .droopCount k 0 1).updIsl k fun i => { i with droop := none }).showIsl k)) ∧
    (∀ t, (s.isl k).droop = some t → 200 ≤ ticks t s.now → ticks t s.now ≤ 10200 → k < 16 →
      LeadsTo (.DROOP_RESTART k false) s ((((s.radd32 .droopCount k 0 1).updIsl k fun i => { i with droop := none }).showIsl k).droopReplay k)) ∧
    (s.rbit .safePolicy 2 = false → LeadsTo (.CLOCK_VOLTAGE_FAULT k) s (s.logFault { cls := 13, island := k, action := 8 })) ∧
    (s.rbit .safePolicy 2 = true → 16 ≤ k →
      LeadsTo (.CLOCK_VOLTAGE_FAULT k) s
        ((((s.updIsl k fun i => { i with fault := some s.now }).showIsl k).logFault { cls := 13, island := k, action := 7 }).handIsland k)) ∧
    (s.rbit .safePolicy 2 = true → k < 16 →
      LeadsTo (.CLOCK_VOLTAGE_FAULT k) s
        ((((s.updIsl k fun i => { i with fault := some s.now }).showIsl k).logFault { cls := 13, island := k, action := 7 }).retentionLost k)) ∧
    (∀ t, (s.isl k).fault = some t → 1000000 ≤ ticks t s.now →
      LeadsTo (.CLOCK_FAULT_RESTART k) s ((s.updIsl k fun i => { i with fault := none }).showIsl k)) ∧
    (s.runs 29 → s.rbit .safePolicy 1 = true →
      LeadsTo .LOCKSTEP_MISMATCH s ((s.withCp fun c => { c with halted := true }).logFault { cls := 12, island := 29, action := 6 })) ∧
    (s.runs 29 → s.rbit .safePolicy 1 = false → LeadsTo .LOCKSTEP_MISMATCH s (s.logFault { cls := 12, island := 29, action := 8 }))

/-- An entropy source that fails its health test is counted and reported, and restarts 10 ms later where that is enabled (R296); a DRBG is seeded
again after 2^20 requests or 1 s (R295); a configuration check that does not agree is logged (R305). -/
def Obligations.EntropyAndConfigurationRowsAct : Prop :=
  ∀ (s : State) (u test : Nat), u < 2 →
    (1 ≤ test → test ≤ 3 → s.runs (30 + u) →
      LeadsTo (.ENTROPY_HEALTH_FAIL u test) s
        (((((s.rput .entStatus u 0 (1 + sat 65535 (s.rfld .entStatus 16 16 u + 1) * 65536)).withQst fun q =>
          { q with failAt := q.failAt.set u s.now }).logFault { cls := 11, island := 30 + u, action := 0, loc := u }).event 0
            { code := 0x1302, island := 30 + u, d0 := u, d1 := test, d2 := s.qst.restarts.get u }))) ∧
    (s.runs (30 + u) → s.entFailed u = true → s.rbit .qstPolicy 2 = true → 10000000 ≤ ticks (s.qst.failAt.get u) s.now →
      LeadsTo (.ENTROPY_RESTART u true) s
        (((s.rsetFld .entStatus 0 1 0 u).withQst fun q => { q with restarts := q.restarts.upd u (· + 1) }).seedDrbg u)) ∧
    (s.runs (30 + u) → s.entFailed u = false → 2 ^ 20 ≤ s.qst.reqs.get u ∨ 1000000000 ≤ ticks (s.qst.seeded.get u) s.now →
      LeadsTo (.DRBG_RESEED u) s (s.seedDrbg u)) ∧
    LeadsTo (.CONFIGURATION_CRC_CHECK false) s (s.logFault { cls := 17, island := 33, action := 0 }) ∧
    LeadsTo (.CONFIGURATION_CRC_CHECK true) s s

/-! ### Rules over the block -/

/-- BAR4 (R211, R222, R224, R309, R361): a function reaches the unsealed pages of its own map and nothing else.  A read of them answers their bytes, or
zeros marked as poisoned, a page refused by parity logged, or waits while a line of it is held; a refused read answers zeros, a refused write is
dropped, and both are counted for a tenant; a write within a line stores its bytes and changes no other. -/
def Obligations.Bar4AccessesReachUnsealedPages : Prop :=
  ∀ (s s1 : State) (fn off len : Nat) (es : List Hit) (bs : List W8), s.reached fn → s1 = s.strike es →
    (∀ w, fn = 0 → s1.inArea off len = true → LeadsTo (.BAR4_ACCESS 0 off len w es) s (s1.areaDeny len w)) ∧
    (∀ u, fn ≠ 0 ∨ s1.inArea off len = false → u = (if fn = 0 then s1 else s1.radd32 .memBarDenied (fn - 1) 0 1) →
      s1.extOk fn off len = false ∨ s1.extSealed fn off len = true →
      LeadsTo (.BAR4_ACCESS fn off len none es) s (u.send (.readData fn (List.replicate len 0) false)) ∧
      LeadsTo (.BAR4_ACCESS fn off len (some bs) es) s u) ∧
    (∀ t, fn ≠ 0 ∨ s1.inArea off len = false → s1.extOk fn off len = true → s1.extSealed fn off len = false →
      (t = s1.meetExt fn off len → t.extOk fn off len = true → t.extSealed fn off len = false →
        (t.extHeld fn off len = none → t.firstPoison fn off len = none →
          LeadsTo (.BAR4_ACCESS fn off len none es) s
            (t.send (.readData fn ((List.range len).map fun i => memGet t.mem.bytes (t.phys fn (off + i))) false))) ∧
        (∀ l, t.extHeld fn off len = none → t.firstPoison fn off len = some l →
          ((t.linesOf fn off len).find? fun l => t.mem.tagErrs.contains (l / 32768)) = none →
          LeadsTo (.BAR4_ACCESS fn off len none es) s
            ((t.radd32 .poisonReads (chanOf (l * 64)) 0 1).send (.readData fn (List.replicate len 0) true))) ∧
        (∀ l k, t.extHeld fn off len = none → t.firstPoison fn off len = some l →
          ((t.linesOf fn off len).find? fun l => t.mem.tagErrs.contains (l / 32768)) = some k →
          LeadsTo (.BAR4_ACCESS fn off len none es) s
            (((t.logMem k 14 0).radd32 .poisonReads (chanOf (l * 64)) 0 1).send (.readData fn (List.replicate len 0) true))) ∧
        (∀ c, t.extHeld fn off len = some c → LeadsTo (.BAR4_ACCESS fn off len none es) s t)) ∧
      (bs.length = len → off % 64 + len ≤ 64 → s1.extHeld fn off len = none → s1.linePoison (s1.phys fn off / 64) = false →
        s1.mem.errs.contains ⟨s1.phys fn off / 64, true⟩ = false → s1.canonical = true →
        ∃ t, LeadsTo (.BAR4_ACCESS fn off len (some bs) es) s t ∧ Memory.wf t.mem.bytes = true ∧ t.io = s.io ∧
          ∀ a, memGet t.mem.bytes a =
            if s1.phys fn off ≤ a ∧ a < s1.phys fn off + len then bs.getD (a - s1.phys fn off) 0 else memGet s.mem.bytes a))

/-- A NOP next in its queue's order that runs in a step of its own writes its one record (R25, R34, R47): bytes 4 to 15 first, then bytes 0 to 3, into
the slot of its count; the queue's count of records moves on, its context is free, memory and registers are as before. -/
def Obligations.ANopWritesItsRecord : Prop :=
  ∀ (s : State) (q c : Nat) (h : HostData) (x : Ctx) (a : W64) (b : List W8) (st : Step), s.begins 0x00 q c x →
    s.runs 28 → w32 c = (s.queue q).done → (s.queue q).mode = .running → x.dropped = false →
    (∀ y ∈ s.cp.ctxs, y.id ≠ ⟨q, w32 c + 1⟩) → s.step? x.sid = some st → st.explicit = false → bit (x.w 0) 10 = false → s.hostUp x.fn = true →
    a = (s.queue q).recAddr (w32 c) → isDev a = false → isDev (addrAdd a 4) = false →
    b = recordBytes stDone (phaseOf (w32 c) (s.queue q).log2) (b01 x.evt) (fld (x.w 1) 16 16) (w32 c) x.epoch 0 s.now →
    ∃ t, LeadsTo (.NOP q c h) s t ∧ t.io = .hostWrite x.fn (offOf a) (b.take 4) :: .hostWrite x.fn (offOf (addrAdd a 4)) (b.drop 4) :: s.io ∧
      (t.queue q).done = (s.queue q).done + 1 ∧ t.ctx? (cmdId q c) = none ∧ t.step? x.sid = none ∧ t.rf = s.rf ∧ t.mem = s.mem

/-- The refill at a period boundary (R78): every account takes its budget plus what it had left, at most one more budget and never a debt; the
self-test account carries nothing; no other register changes. -/
def Obligations.EveryAccountIsRefilled : Prop :=
  ∀ (s : State) (a : Acct), a ∈ allAccts →
    (allAccts.foldl State.refill s).balance a =
      (s.budget a : Int) + (if a = .bg 0 then 0 else min (max (s.balance a) 0) (s.budget a)) ∧
    ∀ r, r ∉ allAccts.map Acct.bal → (allAccts.foldl State.refill s).rget r = s.rget r

/-- The next tile is one of the step with the lowest key (R93, R97): none of the candidates comes before the one chosen, and there is one wherever
there is a candidate. -/
def Obligations.TheLowestKeyIsChosen : Prop :=
  ∀ (s : State) (l : List (Ctx × Nat)),
    (l ≠ [] → ∃ c, s.lowest l = some c) ∧
    ∀ c, s.lowest l = some c → c ∈ l ∧ ∀ d ∈ l, keyLt (s.keyOf d.1) (s.keyOf c.1) = false

/-- Event rings (R38): a head written between the present head and the tail is the consumed count; an event on a full or disabled ring is counted in
TEN.EVQ_LOST and remembered, and nothing is written; the next record written carries LOST and the number lost since the previous one. -/
def Obligations.EventsAreLostOnAFullRing : Prop :=
  ∀ (s : State) (fn k : Nat) (e : EvRec) (v : W32), s.reached fn → s.cp.halted = false → k = s.rfld .evqCtrl 8 5 fn →
    (s.cp.evHeld.any fun w => w.1 == fn) = false →
    (s.runs 29 → (w32 (s.rnat .evqTail fn) - v).toNat ≤ (w32 (s.rnat .evqTail fn) - w32 (s.rnat .evqHead fn)).toNat →
      ∃ t, LeadsTo (.EVQ_HEAD_WRITE fn v) s t ∧ t.rnat .evqHead fn = v.toNat) ∧
    (s.rbit .evqCtrl 0 fn = false ∨ 2 ^ k ≤ (s.rnat .evqTail fn + 2 ^ 32 - s.rnat .evqHead fn) % 2 ^ 32 →
      (s.event fn e).rnat .evqLost fn = (s.rnat .evqLost fn + 1) % 2 ^ 32 ∧ (s.event fn e).cp.evLost.get fn = s.cp.evLost.get fn + 1 ∧
      (s.event fn e).io = s.io ∧ (s.event fn e).mem = s.mem ∧ (s.event fn e).rget ⟨.evqTail, fn, 0⟩ = s.rget ⟨.evqTail, fn, 0⟩) ∧
    (∀ a b, s.runs 28 → s.rbit .evqCtrl 0 fn = true → (s.rnat .evqTail fn + 2 ^ 32 - s.rnat .evqHead fn) % 2 ^ 32 < 2 ^ k →
      (∀ t, tenantOf fn = some t → s.rfld .tenEvqCap 0 16 t = 0 ∨ s.cp.evWritten.get fn < s.rfld .tenEvqCap 0 16 t) → s.hostUp fn = true →
      a = addrAdd (ringAddr (s.rget ⟨.evqBase, fn, 0⟩)) (32 * (s.rnat .evqTail fn % 2 ^ k)) → isDev a = false → isDev (addrAdd a 4) = false →
      b = eventBytes e (1 - fld (s.rnat .evqTail fn) k 1) (b01 (s.cp.evLost.get fn ≠ 0)) (s.cp.evLost.get fn) s.now →
      (s.event fn e).io = .hostWrite fn (offOf a) (b.take 4) :: .hostWrite fn (offOf (addrAdd a 4)) (b.drop 4) :: s.io ∧
      (s.event fn e).cp.evLost.get fn = 0 ∧ (s.event fn e).rnat .evqTail fn = (s.rnat .evqTail fn + 1) % 2 ^ 32)

/-- The frame of the rows that act on registers and on their own unit only (`Framed` names each and the registers it may change): memory, the
Toychest's bytes, every queue's contexts and every other register stay as they were. -/
def Obligations.FramedRowsChangeOnlyTheirRegisters : Prop :=
  ∀ (c : Instr) (rs : List RegName) (s t : State), Framed c rs → exec c s = .next t →
    t.mem = s.mem ∧ t.toy.bytes = s.toy.bytes ∧ t.cp.ctxs = s.cp.ctxs ∧ t.pending = s.pending ∧ ∀ r : Reg, r.n ∉ rs → t.rget r = s.rget r

/-- An epoch that is abandoned leaves no trace (R65): whatever 32-bit writes of registers with RWE fields run while it is open, they only reach the
shadows, and when it is abandoned every register in force but GLB.EPOCH_CTRL, which reads 0, is what it was, with memory, queues and every unit. -/
def Obligations.AnAbandonedEpochLeavesNoTrace : Prop :=
  ∀ (s : State) (ws : List (Nat × W64)) (rest : List Instr), s.reached 0 → s.epochOpen = true → s.epochPending = false →
    s.pending = (ws.map fun w => Instr.RWE_WRITE w.1 4 w.2) ++ .EPOCH_ABANDON :: rest →
    ∃ t, Host.Core.run core (ws.length + 1) s = .next t ∧ t.pending = rest ∧ t.rf.shadow = [] ∧ t.rget ⟨.epochCtrl, 0, 0⟩ = 0 ∧
      (∀ r, r ≠ ⟨.epochCtrl, 0, 0⟩ → t.rget r = s.rget r) ∧ t = { s with pending := rest, rf := t.rf }
end

