-- ==== Sys2Proof/Laws/Memory.lean ====
section
/-! SUPPORT. The byte memory: its canonical form is kept by every memory operation, and what a read gives after a write. -/

namespace Sys2Proof.Machine

/-- The canonical form, said once for the whole list: addresses strictly rising, and no byte 0 listed. -/
theorem memWf_iff (m : List Host.Cell) :
    memWf m = true ↔ m.Pairwise (fun a b => a.1 < b.1) ∧ ∀ e ∈ m, e.2 ≠ 0 := by
  induction m with
  | nil => simp [memWf]
  | cons e l ih =>
    obtain ⟨a, b⟩ := e
    cases l with
    | nil => simp [memWf]
    | cons e' l' =>
      obtain ⟨a', b'⟩ := e'
      simp only [memWf, Bool.and_eq_true, bne_iff_ne, ne_eq, decide_eq_true_eq, ih, List.pairwise_cons, List.mem_cons,
        forall_eq_or_imp]
      constructor
      · rintro ⟨⟨hb, hlt⟩, ⟨h1, h2⟩, h3, h4⟩
        exact ⟨⟨⟨hlt, fun x hx => lt_trans hlt (h1 x hx)⟩, h1, h2⟩, hb, h3, h4⟩
      · rintro ⟨⟨⟨hlt, _⟩, h1, h2⟩, hb, h3, h4⟩
        exact ⟨⟨hb, hlt⟩, ⟨h1, h2⟩, h3, h4⟩

/-- An entry of a memory after a write is an old one at another address, or the written one, not 0. -/
theorem mem_memPut {m : List Host.Cell} {k : Nat} {v : W8} {e : Host.Cell} (h : e ∈ memPut m k v) :
    e ∈ m ∨ (e = (k, v) ∧ v ≠ 0) := by
  induction m with
  | nil => by_cases hv : v = 0 <;> simp_all [memPut]
  | cons c l ih =>
    obtain ⟨a, b⟩ := c
    simp only [memPut] at h
    by_cases hv : v = 0
    · split at h
      · simp_all
      · split at h
        · simp_all
        · simp only [List.mem_cons] at h ⊢
          rcases h with h | h
          · exact .inl (.inl h)
          · rcases ih h with h | h
            · exact .inl (.inr h)
            · exact absurd hv h.2
    · split at h
      · simp only [List.mem_cons] at h ⊢
        rcases h with h | h | h
        · exact .inr ⟨h, hv⟩
        · exact .inl (.inl h)
        · exact .inl (.inr h)
      · split at h
        · simp only [List.mem_cons] at h ⊢
          rcases h with h | h
          · exact .inr ⟨h, hv⟩
          · exact .inl (.inr h)
        · simp only [List.mem_cons] at h ⊢
          rcases h with h | h
          · exact .inl (.inl h)
          · rcases ih h with h | h
            · exact .inl (.inr h)
            · exact .inr h

/-- Writing one byte keeps the canonical form. -/
theorem memWf_memPut {m : List Host.Cell} (k : Nat) (v : W8) (h : memWf m = true) : memWf (memPut m k v) = true := by
  rw [memWf_iff] at h ⊢
  refine ⟨?_, fun e he => ?_⟩
  · obtain ⟨hs, -⟩ := h
    induction m with
    | nil =>
      simp only [memPut]
      split
      · exact List.Pairwise.nil
      · exact List.pairwise_singleton _ _
    | cons c l ih =>
      obtain ⟨a, b⟩ := c
      rw [List.pairwise_cons] at hs
      simp only [memPut]
      split
      · rename_i hk
        by_cases hv : v = 0
        · simp only [hv, if_true, List.pairwise_cons]; exact hs
        · simp only [hv, if_false, List.pairwise_cons, List.mem_cons, forall_eq_or_imp]
          exact ⟨⟨hk, fun e he => lt_trans hk (hs.1 e he)⟩, hs.1, hs.2⟩
      · split
        · rename_i hk
          by_cases hv : v = 0
          · simp only [hv, if_true]; exact hs.2
          · simp only [hv, if_false, List.pairwise_cons]
            subst hk; exact hs
        · rename_i h1 h2
          rw [List.pairwise_cons]
          refine ⟨fun e he => ?_, ih hs.2⟩
          rcases mem_memPut he with he | ⟨rfl, -⟩
          · exact hs.1 e he
          · show a < k; omega
  · rcases mem_memPut he with he | ⟨rfl, hv⟩
    · exact h.2 e he
    · exact hv

/-- Writing bytes keeps the canonical form. -/
theorem memWf_memPuts (bs : List W8) : ∀ {m : List Host.Cell} (a : Nat), memWf m = true → memWf (memPuts m a bs) = true := by
  induction bs with
  | nil => intro m a h; exact h
  | cons b l ih => intro m a h; exact ih _ (memWf_memPut a b h)

/-- Zeroing a range keeps the canonical form. -/
theorem memWf_memZero {m : List Host.Cell} (a n : Nat) (h : memWf m = true) : memWf (memZero m a n) = true := by
  rw [memWf_iff] at h ⊢
  exact ⟨h.1.filter _, fun e he => h.2 e (List.mem_of_mem_filter he)⟩

/-- A byte reads as 0 where every listed address lies above it. -/
theorem memGet_of_lt {m : List Host.Cell} {k : Nat} (h : ∀ e ∈ m, k < e.1) : memGet m k = 0 := by
  induction m with
  | nil => rfl
  | cons c l ih =>
    obtain ⟨a, b⟩ := c
    have ha : k < a := h _ List.mem_cons_self
    simp only [memGet]
    rw [if_neg (by omega)]
    exact ih fun e he => h e (List.mem_cons_of_mem _ he)

/-- A read after a write: the written byte at its address, and every other byte as before. -/
theorem memGet_memPut {m : List Host.Cell} (k : Nat) (v : W8) (j : Nat) (h : memWf m = true) :
    memGet (memPut m k v) j = if j = k then v else memGet m j := by
  rw [memWf_iff] at h
  obtain ⟨hs, -⟩ := h
  induction m with
  | nil =>
    simp only [memPut]
    split
    · rename_i hv; simp only [memGet, hv, ite_self]
    · simp only [memGet, eq_comm]
  | cons c l ih =>
    obtain ⟨a, b⟩ := c
    rw [List.pairwise_cons] at hs
    have hl : ∀ x, x ≤ a → memGet l x = 0 := fun x hx => memGet_of_lt fun e he => lt_of_le_of_lt hx (hs.1 e he)
    simp only [memPut]
    by_cases hk : k < a
    · rw [if_pos hk]
      by_cases hv : v = 0
      · simp only [hv, if_true]
        by_cases hj : j = k
        · subst hj
          rw [if_pos rfl]
          simp only [memGet]; rw [if_neg (by omega)]; exact hl j (by omega)
        · rw [if_neg hj]
      · simp only [hv, if_false]
        by_cases hj : j = k
        · simp [memGet, hj]
        · rw [if_neg hj]
          show (if k = j then v else memGet ((a, b) :: l) j) = _
          rw [if_neg (Ne.symm hj)]
    · rw [if_neg hk]
      by_cases hka : k = a
      · rw [if_pos hka]
        by_cases hv : v = 0
        · simp only [hv, if_true]
          by_cases hj : j = k
          · rw [if_pos hj]; exact hl j (by omega)
          · rw [if_neg hj]; simp only [memGet]; rw [if_neg (by omega)]
        · simp only [hv, if_false]
          by_cases hj : j = k
          · simp [memGet, hj]
          · simp only [memGet]; rw [if_neg (by omega), if_neg hj, if_neg (by omega)]
      · rw [if_neg hka]
        simp only [memGet]
        by_cases hj : a = j
        · rw [if_pos hj, if_neg (by omega), if_pos hj]
        · rw [if_neg hj, if_neg hj]; exact ih hs.2

/-- A read after bytes were written: the byte written there, or what was there before. -/
theorem memGet_memPuts (bs : List W8) : ∀ {m : List Host.Cell} (a j : Nat), memWf m = true →
    memGet (memPuts m a bs) j = if a ≤ j ∧ j < a + bs.length then bs.getD (j - a) 0 else memGet m j := by
  induction bs with
  | nil => intro m a j _; rw [if_neg (by simp)]; rfl
  | cons b l ih =>
    intro m a j h
    simp only [memPuts]
    rw [ih (a + 1) j (memWf_memPut a b h), memGet_memPut a b j h]
    by_cases h1 : j = a
    · subst h1
      have : ¬ (j + 1 ≤ j ∧ j < j + 1 + l.length) := by omega
      rw [if_neg this, if_pos rfl, if_pos (by simp)]; simp
    · by_cases h2 : a + 1 ≤ j ∧ j < a + 1 + l.length
      · rw [if_pos h2, if_pos (by simp; omega)]
        have : j - a = (j - (a + 1)) + 1 := by omega
        rw [this]; simp
      · rw [if_neg h2, if_neg h1, if_neg (by simp; omega)]

/-- Memory at reset is canonical. -/
theorem reset_canonical : State.reset.canonical = true := by decide

end Sys2Proof.Machine
end

