-- ==== Sys2Proof/Laws/State.lean ====
section
/-! SUPPORT. What each field of the state is after each of the named updates: one lemma for each field and update, true by definition. -/

namespace Sys2Proof.Machine

variable (s : State)

/-! ### `withCp` -/

@[simp] theorem State.withCp_pending (f : Cp → Cp) : (s.withCp f).pending = s.pending := rfl
@[simp] theorem State.withCp_now (f : Cp → Cp) : (s.withCp f).now = s.now := rfl
@[simp] theorem State.withCp_freeN (f : Cp → Cp) : (s.withCp f).freeN = s.freeN := rfl
@[simp] theorem State.withCp_io (f : Cp → Cp) : (s.withCp f).io = s.io := rfl
@[simp] theorem State.withCp_rf (f : Cp → Cp) : (s.withCp f).rf = s.rf := rfl
@[simp] theorem State.withCp_cp (f : Cp → Cp) : (s.withCp f).cp = f s.cp := rfl
@[simp] theorem State.withCp_en (f : Cp → Cp) : (s.withCp f).en = s.en := rfl
@[simp] theorem State.withCp_toy (f : Cp → Cp) : (s.withCp f).toy = s.toy := rfl
@[simp] theorem State.withCp_qn (f : Cp → Cp) : (s.withCp f).qn = s.qn := rfl
@[simp] theorem State.withCp_mem (f : Cp → Cp) : (s.withCp f).mem = s.mem := rfl
@[simp] theorem State.withCp_emb (f : Cp → Cp) : (s.withCp f).emb = s.emb := rfl
@[simp] theorem State.withCp_lnk (f : Cp → Cp) : (s.withCp f).lnk = s.lnk := rfl
@[simp] theorem State.withCp_seq (f : Cp → Cp) : (s.withCp f).seq = s.seq := rfl
@[simp] theorem State.withCp_intake (f : Cp → Cp) : (s.withCp f).intake = s.intake := rfl
@[simp] theorem State.withCp_qst (f : Cp → Cp) : (s.withCp f).qst = s.qst := rfl
@[simp] theorem State.withCp_safe (f : Cp → Cp) : (s.withCp f).safe = s.safe := rfl
@[simp] theorem State.withCp_pwr (f : Cp → Cp) : (s.withCp f).pwr = s.pwr := rfl
@[simp] theorem State.withCp_win (f : Cp → Cp) : (s.withCp f).win = s.win := rfl

/-! ### `withEn` -/

@[simp] theorem State.withEn_pending (f : Engines → Engines) : (s.withEn f).pending = s.pending := rfl
@[simp] theorem State.withEn_now (f : Engines → Engines) : (s.withEn f).now = s.now := rfl
@[simp] theorem State.withEn_freeN (f : Engines → Engines) : (s.withEn f).freeN = s.freeN := rfl
@[simp] theorem State.withEn_io (f : Engines → Engines) : (s.withEn f).io = s.io := rfl
@[simp] theorem State.withEn_rf (f : Engines → Engines) : (s.withEn f).rf = s.rf := rfl
@[simp] theorem State.withEn_cp (f : Engines → Engines) : (s.withEn f).cp = s.cp := rfl
@[simp] theorem State.withEn_en (f : Engines → Engines) : (s.withEn f).en = f s.en := rfl
@[simp] theorem State.withEn_toy (f : Engines → Engines) : (s.withEn f).toy = s.toy := rfl
@[simp] theorem State.withEn_qn (f : Engines → Engines) : (s.withEn f).qn = s.qn := rfl
@[simp] theorem State.withEn_mem (f : Engines → Engines) : (s.withEn f).mem = s.mem := rfl
@[simp] theorem State.withEn_emb (f : Engines → Engines) : (s.withEn f).emb = s.emb := rfl
@[simp] theorem State.withEn_lnk (f : Engines → Engines) : (s.withEn f).lnk = s.lnk := rfl
@[simp] theorem State.withEn_seq (f : Engines → Engines) : (s.withEn f).seq = s.seq := rfl
@[simp] theorem State.withEn_intake (f : Engines → Engines) : (s.withEn f).intake = s.intake := rfl
@[simp] theorem State.withEn_qst (f : Engines → Engines) : (s.withEn f).qst = s.qst := rfl
@[simp] theorem State.withEn_safe (f : Engines → Engines) : (s.withEn f).safe = s.safe := rfl
@[simp] theorem State.withEn_pwr (f : Engines → Engines) : (s.withEn f).pwr = s.pwr := rfl
@[simp] theorem State.withEn_win (f : Engines → Engines) : (s.withEn f).win = s.win := rfl

/-! ### `withToy` -/

@[simp] theorem State.withToy_pending (f : Toy → Toy) : (s.withToy f).pending = s.pending := rfl
@[simp] theorem State.withToy_now (f : Toy → Toy) : (s.withToy f).now = s.now := rfl
@[simp] theorem State.withToy_freeN (f : Toy → Toy) : (s.withToy f).freeN = s.freeN := rfl
@[simp] theorem State.withToy_io (f : Toy → Toy) : (s.withToy f).io = s.io := rfl
@[simp] theorem State.withToy_rf (f : Toy → Toy) : (s.withToy f).rf = s.rf := rfl
@[simp] theorem State.withToy_cp (f : Toy → Toy) : (s.withToy f).cp = s.cp := rfl
@[simp] theorem State.withToy_en (f : Toy → Toy) : (s.withToy f).en = s.en := rfl
@[simp] theorem State.withToy_toy (f : Toy → Toy) : (s.withToy f).toy = f s.toy := rfl
@[simp] theorem State.withToy_qn (f : Toy → Toy) : (s.withToy f).qn = s.qn := rfl
@[simp] theorem State.withToy_mem (f : Toy → Toy) : (s.withToy f).mem = s.mem := rfl
@[simp] theorem State.withToy_emb (f : Toy → Toy) : (s.withToy f).emb = s.emb := rfl
@[simp] theorem State.withToy_lnk (f : Toy → Toy) : (s.withToy f).lnk = s.lnk := rfl
@[simp] theorem State.withToy_seq (f : Toy → Toy) : (s.withToy f).seq = s.seq := rfl
@[simp] theorem State.withToy_intake (f : Toy → Toy) : (s.withToy f).intake = s.intake := rfl
@[simp] theorem State.withToy_qst (f : Toy → Toy) : (s.withToy f).qst = s.qst := rfl
@[simp] theorem State.withToy_safe (f : Toy → Toy) : (s.withToy f).safe = s.safe := rfl
@[simp] theorem State.withToy_pwr (f : Toy → Toy) : (s.withToy f).pwr = s.pwr := rfl
@[simp] theorem State.withToy_win (f : Toy → Toy) : (s.withToy f).win = s.win := rfl

/-! ### `withMem` -/

@[simp] theorem State.withMem_pending (f : Mem → Mem) : (s.withMem f).pending = s.pending := rfl
@[simp] theorem State.withMem_now (f : Mem → Mem) : (s.withMem f).now = s.now := rfl
@[simp] theorem State.withMem_freeN (f : Mem → Mem) : (s.withMem f).freeN = s.freeN := rfl
@[simp] theorem State.withMem_io (f : Mem → Mem) : (s.withMem f).io = s.io := rfl
@[simp] theorem State.withMem_rf (f : Mem → Mem) : (s.withMem f).rf = s.rf := rfl
@[simp] theorem State.withMem_cp (f : Mem → Mem) : (s.withMem f).cp = s.cp := rfl
@[simp] theorem State.withMem_en (f : Mem → Mem) : (s.withMem f).en = s.en := rfl
@[simp] theorem State.withMem_toy (f : Mem → Mem) : (s.withMem f).toy = s.toy := rfl
@[simp] theorem State.withMem_qn (f : Mem → Mem) : (s.withMem f).qn = s.qn := rfl
@[simp] theorem State.withMem_mem (f : Mem → Mem) : (s.withMem f).mem = f s.mem := rfl
@[simp] theorem State.withMem_emb (f : Mem → Mem) : (s.withMem f).emb = s.emb := rfl
@[simp] theorem State.withMem_lnk (f : Mem → Mem) : (s.withMem f).lnk = s.lnk := rfl
@[simp] theorem State.withMem_seq (f : Mem → Mem) : (s.withMem f).seq = s.seq := rfl
@[simp] theorem State.withMem_intake (f : Mem → Mem) : (s.withMem f).intake = s.intake := rfl
@[simp] theorem State.withMem_qst (f : Mem → Mem) : (s.withMem f).qst = s.qst := rfl
@[simp] theorem State.withMem_safe (f : Mem → Mem) : (s.withMem f).safe = s.safe := rfl
@[simp] theorem State.withMem_pwr (f : Mem → Mem) : (s.withMem f).pwr = s.pwr := rfl
@[simp] theorem State.withMem_win (f : Mem → Mem) : (s.withMem f).win = s.win := rfl

/-! ### `withEmb` -/

@[simp] theorem State.withEmb_pending (f : Emb → Emb) : (s.withEmb f).pending = s.pending := rfl
@[simp] theorem State.withEmb_now (f : Emb → Emb) : (s.withEmb f).now = s.now := rfl
@[simp] theorem State.withEmb_freeN (f : Emb → Emb) : (s.withEmb f).freeN = s.freeN := rfl
@[simp] theorem State.withEmb_io (f : Emb → Emb) : (s.withEmb f).io = s.io := rfl
@[simp] theorem State.withEmb_rf (f : Emb → Emb) : (s.withEmb f).rf = s.rf := rfl
@[simp] theorem State.withEmb_cp (f : Emb → Emb) : (s.withEmb f).cp = s.cp := rfl
@[simp] theorem State.withEmb_en (f : Emb → Emb) : (s.withEmb f).en = s.en := rfl
@[simp] theorem State.withEmb_toy (f : Emb → Emb) : (s.withEmb f).toy = s.toy := rfl
@[simp] theorem State.withEmb_qn (f : Emb → Emb) : (s.withEmb f).qn = s.qn := rfl
@[simp] theorem State.withEmb_mem (f : Emb → Emb) : (s.withEmb f).mem = s.mem := rfl
@[simp] theorem State.withEmb_emb (f : Emb → Emb) : (s.withEmb f).emb = f s.emb := rfl
@[simp] theorem State.withEmb_lnk (f : Emb → Emb) : (s.withEmb f).lnk = s.lnk := rfl
@[simp] theorem State.withEmb_seq (f : Emb → Emb) : (s.withEmb f).seq = s.seq := rfl
@[simp] theorem State.withEmb_intake (f : Emb → Emb) : (s.withEmb f).intake = s.intake := rfl
@[simp] theorem State.withEmb_qst (f : Emb → Emb) : (s.withEmb f).qst = s.qst := rfl
@[simp] theorem State.withEmb_safe (f : Emb → Emb) : (s.withEmb f).safe = s.safe := rfl
@[simp] theorem State.withEmb_pwr (f : Emb → Emb) : (s.withEmb f).pwr = s.pwr := rfl
@[simp] theorem State.withEmb_win (f : Emb → Emb) : (s.withEmb f).win = s.win := rfl

/-! ### `withLnk` -/

@[simp] theorem State.withLnk_pending (f : Lnk → Lnk) : (s.withLnk f).pending = s.pending := rfl
@[simp] theorem State.withLnk_now (f : Lnk → Lnk) : (s.withLnk f).now = s.now := rfl
@[simp] theorem State.withLnk_freeN (f : Lnk → Lnk) : (s.withLnk f).freeN = s.freeN := rfl
@[simp] theorem State.withLnk_io (f : Lnk → Lnk) : (s.withLnk f).io = s.io := rfl
@[simp] theorem State.withLnk_rf (f : Lnk → Lnk) : (s.withLnk f).rf = s.rf := rfl
@[simp] theorem State.withLnk_cp (f : Lnk → Lnk) : (s.withLnk f).cp = s.cp := rfl
@[simp] theorem State.withLnk_en (f : Lnk → Lnk) : (s.withLnk f).en = s.en := rfl
@[simp] theorem State.withLnk_toy (f : Lnk → Lnk) : (s.withLnk f).toy = s.toy := rfl
@[simp] theorem State.withLnk_qn (f : Lnk → Lnk) : (s.withLnk f).qn = s.qn := rfl
@[simp] theorem State.withLnk_mem (f : Lnk → Lnk) : (s.withLnk f).mem = s.mem := rfl
@[simp] theorem State.withLnk_emb (f : Lnk → Lnk) : (s.withLnk f).emb = s.emb := rfl
@[simp] theorem State.withLnk_lnk (f : Lnk → Lnk) : (s.withLnk f).lnk = f s.lnk := rfl
@[simp] theorem State.withLnk_seq (f : Lnk → Lnk) : (s.withLnk f).seq = s.seq := rfl
@[simp] theorem State.withLnk_intake (f : Lnk → Lnk) : (s.withLnk f).intake = s.intake := rfl
@[simp] theorem State.withLnk_qst (f : Lnk → Lnk) : (s.withLnk f).qst = s.qst := rfl
@[simp] theorem State.withLnk_safe (f : Lnk → Lnk) : (s.withLnk f).safe = s.safe := rfl
@[simp] theorem State.withLnk_pwr (f : Lnk → Lnk) : (s.withLnk f).pwr = s.pwr := rfl
@[simp] theorem State.withLnk_win (f : Lnk → Lnk) : (s.withLnk f).win = s.win := rfl

/-! ### `withSeq` -/

@[simp] theorem State.withSeq_pending (f : Seq → Seq) : (s.withSeq f).pending = s.pending := rfl
@[simp] theorem State.withSeq_now (f : Seq → Seq) : (s.withSeq f).now = s.now := rfl
@[simp] theorem State.withSeq_freeN (f : Seq → Seq) : (s.withSeq f).freeN = s.freeN := rfl
@[simp] theorem State.withSeq_io (f : Seq → Seq) : (s.withSeq f).io = s.io := rfl
@[simp] theorem State.withSeq_rf (f : Seq → Seq) : (s.withSeq f).rf = s.rf := rfl
@[simp] theorem State.withSeq_cp (f : Seq → Seq) : (s.withSeq f).cp = s.cp := rfl
@[simp] theorem State.withSeq_en (f : Seq → Seq) : (s.withSeq f).en = s.en := rfl
@[simp] theorem State.withSeq_toy (f : Seq → Seq) : (s.withSeq f).toy = s.toy := rfl
@[simp] theorem State.withSeq_qn (f : Seq → Seq) : (s.withSeq f).qn = s.qn := rfl
@[simp] theorem State.withSeq_mem (f : Seq → Seq) : (s.withSeq f).mem = s.mem := rfl
@[simp] theorem State.withSeq_emb (f : Seq → Seq) : (s.withSeq f).emb = s.emb := rfl
@[simp] theorem State.withSeq_lnk (f : Seq → Seq) : (s.withSeq f).lnk = s.lnk := rfl
@[simp] theorem State.withSeq_seq (f : Seq → Seq) : (s.withSeq f).seq = f s.seq := rfl
@[simp] theorem State.withSeq_intake (f : Seq → Seq) : (s.withSeq f).intake = s.intake := rfl
@[simp] theorem State.withSeq_qst (f : Seq → Seq) : (s.withSeq f).qst = s.qst := rfl
@[simp] theorem State.withSeq_safe (f : Seq → Seq) : (s.withSeq f).safe = s.safe := rfl
@[simp] theorem State.withSeq_pwr (f : Seq → Seq) : (s.withSeq f).pwr = s.pwr := rfl
@[simp] theorem State.withSeq_win (f : Seq → Seq) : (s.withSeq f).win = s.win := rfl

/-! ### `withInt` -/

@[simp] theorem State.withInt_pending (f : Intake → Intake) : (s.withInt f).pending = s.pending := rfl
@[simp] theorem State.withInt_now (f : Intake → Intake) : (s.withInt f).now = s.now := rfl
@[simp] theorem State.withInt_freeN (f : Intake → Intake) : (s.withInt f).freeN = s.freeN := rfl
@[simp] theorem State.withInt_io (f : Intake → Intake) : (s.withInt f).io = s.io := rfl
@[simp] theorem State.withInt_rf (f : Intake → Intake) : (s.withInt f).rf = s.rf := rfl
@[simp] theorem State.withInt_cp (f : Intake → Intake) : (s.withInt f).cp = s.cp := rfl
@[simp] theorem State.withInt_en (f : Intake → Intake) : (s.withInt f).en = s.en := rfl
@[simp] theorem State.withInt_toy (f : Intake → Intake) : (s.withInt f).toy = s.toy := rfl
@[simp] theorem State.withInt_qn (f : Intake → Intake) : (s.withInt f).qn = s.qn := rfl
@[simp] theorem State.withInt_mem (f : Intake → Intake) : (s.withInt f).mem = s.mem := rfl
@[simp] theorem State.withInt_emb (f : Intake → Intake) : (s.withInt f).emb = s.emb := rfl
@[simp] theorem State.withInt_lnk (f : Intake → Intake) : (s.withInt f).lnk = s.lnk := rfl
@[simp] theorem State.withInt_seq (f : Intake → Intake) : (s.withInt f).seq = s.seq := rfl
@[simp] theorem State.withInt_intake (f : Intake → Intake) : (s.withInt f).intake = f s.intake := rfl
@[simp] theorem State.withInt_qst (f : Intake → Intake) : (s.withInt f).qst = s.qst := rfl
@[simp] theorem State.withInt_safe (f : Intake → Intake) : (s.withInt f).safe = s.safe := rfl
@[simp] theorem State.withInt_pwr (f : Intake → Intake) : (s.withInt f).pwr = s.pwr := rfl
@[simp] theorem State.withInt_win (f : Intake → Intake) : (s.withInt f).win = s.win := rfl

/-! ### `withQst` -/

@[simp] theorem State.withQst_pending (f : Qst → Qst) : (s.withQst f).pending = s.pending := rfl
@[simp] theorem State.withQst_now (f : Qst → Qst) : (s.withQst f).now = s.now := rfl
@[simp] theorem State.withQst_freeN (f : Qst → Qst) : (s.withQst f).freeN = s.freeN := rfl
@[simp] theorem State.withQst_io (f : Qst → Qst) : (s.withQst f).io = s.io := rfl
@[simp] theorem State.withQst_rf (f : Qst → Qst) : (s.withQst f).rf = s.rf := rfl
@[simp] theorem State.withQst_cp (f : Qst → Qst) : (s.withQst f).cp = s.cp := rfl
@[simp] theorem State.withQst_en (f : Qst → Qst) : (s.withQst f).en = s.en := rfl
@[simp] theorem State.withQst_toy (f : Qst → Qst) : (s.withQst f).toy = s.toy := rfl
@[simp] theorem State.withQst_qn (f : Qst → Qst) : (s.withQst f).qn = s.qn := rfl
@[simp] theorem State.withQst_mem (f : Qst → Qst) : (s.withQst f).mem = s.mem := rfl
@[simp] theorem State.withQst_emb (f : Qst → Qst) : (s.withQst f).emb = s.emb := rfl
@[simp] theorem State.withQst_lnk (f : Qst → Qst) : (s.withQst f).lnk = s.lnk := rfl
@[simp] theorem State.withQst_seq (f : Qst → Qst) : (s.withQst f).seq = s.seq := rfl
@[simp] theorem State.withQst_intake (f : Qst → Qst) : (s.withQst f).intake = s.intake := rfl
@[simp] theorem State.withQst_qst (f : Qst → Qst) : (s.withQst f).qst = f s.qst := rfl
@[simp] theorem State.withQst_safe (f : Qst → Qst) : (s.withQst f).safe = s.safe := rfl
@[simp] theorem State.withQst_pwr (f : Qst → Qst) : (s.withQst f).pwr = s.pwr := rfl
@[simp] theorem State.withQst_win (f : Qst → Qst) : (s.withQst f).win = s.win := rfl

/-! ### `withPwr` -/

@[simp] theorem State.withPwr_pending (f : Pwr → Pwr) : (s.withPwr f).pending = s.pending := rfl
@[simp] theorem State.withPwr_now (f : Pwr → Pwr) : (s.withPwr f).now = s.now := rfl
@[simp] theorem State.withPwr_freeN (f : Pwr → Pwr) : (s.withPwr f).freeN = s.freeN := rfl
@[simp] theorem State.withPwr_io (f : Pwr → Pwr) : (s.withPwr f).io = s.io := rfl
@[simp] theorem State.withPwr_rf (f : Pwr → Pwr) : (s.withPwr f).rf = s.rf := rfl
@[simp] theorem State.withPwr_cp (f : Pwr → Pwr) : (s.withPwr f).cp = s.cp := rfl
@[simp] theorem State.withPwr_en (f : Pwr → Pwr) : (s.withPwr f).en = s.en := rfl
@[simp] theorem State.withPwr_toy (f : Pwr → Pwr) : (s.withPwr f).toy = s.toy := rfl
@[simp] theorem State.withPwr_qn (f : Pwr → Pwr) : (s.withPwr f).qn = s.qn := rfl
@[simp] theorem State.withPwr_mem (f : Pwr → Pwr) : (s.withPwr f).mem = s.mem := rfl
@[simp] theorem State.withPwr_emb (f : Pwr → Pwr) : (s.withPwr f).emb = s.emb := rfl
@[simp] theorem State.withPwr_lnk (f : Pwr → Pwr) : (s.withPwr f).lnk = s.lnk := rfl
@[simp] theorem State.withPwr_seq (f : Pwr → Pwr) : (s.withPwr f).seq = s.seq := rfl
@[simp] theorem State.withPwr_intake (f : Pwr → Pwr) : (s.withPwr f).intake = s.intake := rfl
@[simp] theorem State.withPwr_qst (f : Pwr → Pwr) : (s.withPwr f).qst = s.qst := rfl
@[simp] theorem State.withPwr_safe (f : Pwr → Pwr) : (s.withPwr f).safe = s.safe := rfl
@[simp] theorem State.withPwr_pwr (f : Pwr → Pwr) : (s.withPwr f).pwr = f s.pwr := rfl
@[simp] theorem State.withPwr_win (f : Pwr → Pwr) : (s.withPwr f).win = s.win := rfl

/-! ### `withWin` -/

@[simp] theorem State.withWin_pending (f : Win → Win) : (s.withWin f).pending = s.pending := rfl
@[simp] theorem State.withWin_now (f : Win → Win) : (s.withWin f).now = s.now := rfl
@[simp] theorem State.withWin_freeN (f : Win → Win) : (s.withWin f).freeN = s.freeN := rfl
@[simp] theorem State.withWin_io (f : Win → Win) : (s.withWin f).io = s.io := rfl
@[simp] theorem State.withWin_rf (f : Win → Win) : (s.withWin f).rf = s.rf := rfl
@[simp] theorem State.withWin_cp (f : Win → Win) : (s.withWin f).cp = s.cp := rfl
@[simp] theorem State.withWin_en (f : Win → Win) : (s.withWin f).en = s.en := rfl
@[simp] theorem State.withWin_toy (f : Win → Win) : (s.withWin f).toy = s.toy := rfl
@[simp] theorem State.withWin_qn (f : Win → Win) : (s.withWin f).qn = s.qn := rfl
@[simp] theorem State.withWin_mem (f : Win → Win) : (s.withWin f).mem = s.mem := rfl
@[simp] theorem State.withWin_emb (f : Win → Win) : (s.withWin f).emb = s.emb := rfl
@[simp] theorem State.withWin_lnk (f : Win → Win) : (s.withWin f).lnk = s.lnk := rfl
@[simp] theorem State.withWin_seq (f : Win → Win) : (s.withWin f).seq = s.seq := rfl
@[simp] theorem State.withWin_intake (f : Win → Win) : (s.withWin f).intake = s.intake := rfl
@[simp] theorem State.withWin_qst (f : Win → Win) : (s.withWin f).qst = s.qst := rfl
@[simp] theorem State.withWin_safe (f : Win → Win) : (s.withWin f).safe = s.safe := rfl
@[simp] theorem State.withWin_pwr (f : Win → Win) : (s.withWin f).pwr = s.pwr := rfl
@[simp] theorem State.withWin_win (f : Win → Win) : (s.withWin f).win = f s.win := rfl

/-! ### `rset` -/

@[simp] theorem State.rset_pending (r : Reg) (v : W64) : (s.rset r v).pending = s.pending := rfl
@[simp] theorem State.rset_now (r : Reg) (v : W64) : (s.rset r v).now = s.now := rfl
@[simp] theorem State.rset_freeN (r : Reg) (v : W64) : (s.rset r v).freeN = s.freeN := rfl
@[simp] theorem State.rset_io (r : Reg) (v : W64) : (s.rset r v).io = s.io := rfl
@[simp] theorem State.rset_rf (r : Reg) (v : W64) : (s.rset r v).rf = s.rf.set r v := rfl
@[simp] theorem State.rset_cp (r : Reg) (v : W64) : (s.rset r v).cp = s.cp := rfl
@[simp] theorem State.rset_en (r : Reg) (v : W64) : (s.rset r v).en = s.en := rfl
@[simp] theorem State.rset_toy (r : Reg) (v : W64) : (s.rset r v).toy = s.toy := rfl
@[simp] theorem State.rset_qn (r : Reg) (v : W64) : (s.rset r v).qn = s.qn := rfl
@[simp] theorem State.rset_mem (r : Reg) (v : W64) : (s.rset r v).mem = s.mem := rfl
@[simp] theorem State.rset_emb (r : Reg) (v : W64) : (s.rset r v).emb = s.emb := rfl
@[simp] theorem State.rset_lnk (r : Reg) (v : W64) : (s.rset r v).lnk = s.lnk := rfl
@[simp] theorem State.rset_seq (r : Reg) (v : W64) : (s.rset r v).seq = s.seq := rfl
@[simp] theorem State.rset_intake (r : Reg) (v : W64) : (s.rset r v).intake = s.intake := rfl
@[simp] theorem State.rset_qst (r : Reg) (v : W64) : (s.rset r v).qst = s.qst := rfl
@[simp] theorem State.rset_safe (r : Reg) (v : W64) : (s.rset r v).safe = s.safe := rfl
@[simp] theorem State.rset_pwr (r : Reg) (v : W64) : (s.rset r v).pwr = s.pwr := rfl
@[simp] theorem State.rset_win (r : Reg) (v : W64) : (s.rset r v).win = s.win := rfl

/-! ### `rput` -/

@[simp] theorem State.rput_pending (n : RegName) (i j v : Nat) : (s.rput n i j v).pending = s.pending := rfl
@[simp] theorem State.rput_now (n : RegName) (i j v : Nat) : (s.rput n i j v).now = s.now := rfl
@[simp] theorem State.rput_freeN (n : RegName) (i j v : Nat) : (s.rput n i j v).freeN = s.freeN := rfl
@[simp] theorem State.rput_io (n : RegName) (i j v : Nat) : (s.rput n i j v).io = s.io := rfl
@[simp] theorem State.rput_rf (n : RegName) (i j v : Nat) : (s.rput n i j v).rf = s.rf.set ⟨n, i, j⟩ (w64 v) := rfl
@[simp] theorem State.rput_cp (n : RegName) (i j v : Nat) : (s.rput n i j v).cp = s.cp := rfl
@[simp] theorem State.rput_en (n : RegName) (i j v : Nat) : (s.rput n i j v).en = s.en := rfl
@[simp] theorem State.rput_toy (n : RegName) (i j v : Nat) : (s.rput n i j v).toy = s.toy := rfl
@[simp] theorem State.rput_qn (n : RegName) (i j v : Nat) : (s.rput n i j v).qn = s.qn := rfl
@[simp] theorem State.rput_mem (n : RegName) (i j v : Nat) : (s.rput n i j v).mem = s.mem := rfl
@[simp] theorem State.rput_emb (n : RegName) (i j v : Nat) : (s.rput n i j v).emb = s.emb := rfl
@[simp] theorem State.rput_lnk (n : RegName) (i j v : Nat) : (s.rput n i j v).lnk = s.lnk := rfl
@[simp] theorem State.rput_seq (n : RegName) (i j v : Nat) : (s.rput n i j v).seq = s.seq := rfl
@[simp] theorem State.rput_intake (n : RegName) (i j v : Nat) : (s.rput n i j v).intake = s.intake := rfl
@[simp] theorem State.rput_qst (n : RegName) (i j v : Nat) : (s.rput n i j v).qst = s.qst := rfl
@[simp] theorem State.rput_safe (n : RegName) (i j v : Nat) : (s.rput n i j v).safe = s.safe := rfl
@[simp] theorem State.rput_pwr (n : RegName) (i j v : Nat) : (s.rput n i j v).pwr = s.pwr := rfl
@[simp] theorem State.rput_win (n : RegName) (i j v : Nat) : (s.rput n i j v).win = s.win := rfl

/-! ### `noteSet` -/

@[simp] theorem State.noteSet_pending (n : RegName) (i b : Nat) : (s.noteSet n i b).pending = s.pending := rfl
@[simp] theorem State.noteSet_now (n : RegName) (i b : Nat) : (s.noteSet n i b).now = s.now := rfl
@[simp] theorem State.noteSet_freeN (n : RegName) (i b : Nat) : (s.noteSet n i b).freeN = s.freeN := rfl
@[simp] theorem State.noteSet_io (n : RegName) (i b : Nat) : (s.noteSet n i b).io = s.io := rfl
@[simp] theorem State.noteSet_rf (n : RegName) (i b : Nat) : (s.noteSet n i b).rf = 
    { s.rf with setNow := (s.now, (n, i, b) :: if s.rf.setNow.1 = s.now then s.rf.setNow.2 else []) } := rfl
@[simp] theorem State.noteSet_cp (n : RegName) (i b : Nat) : (s.noteSet n i b).cp = s.cp := rfl
@[simp] theorem State.noteSet_en (n : RegName) (i b : Nat) : (s.noteSet n i b).en = s.en := rfl
@[simp] theorem State.noteSet_toy (n : RegName) (i b : Nat) : (s.noteSet n i b).toy = s.toy := rfl
@[simp] theorem State.noteSet_qn (n : RegName) (i b : Nat) : (s.noteSet n i b).qn = s.qn := rfl
@[simp] theorem State.noteSet_mem (n : RegName) (i b : Nat) : (s.noteSet n i b).mem = s.mem := rfl
@[simp] theorem State.noteSet_emb (n : RegName) (i b : Nat) : (s.noteSet n i b).emb = s.emb := rfl
@[simp] theorem State.noteSet_lnk (n : RegName) (i b : Nat) : (s.noteSet n i b).lnk = s.lnk := rfl
@[simp] theorem State.noteSet_seq (n : RegName) (i b : Nat) : (s.noteSet n i b).seq = s.seq := rfl
@[simp] theorem State.noteSet_intake (n : RegName) (i b : Nat) : (s.noteSet n i b).intake = s.intake := rfl
@[simp] theorem State.noteSet_qst (n : RegName) (i b : Nat) : (s.noteSet n i b).qst = s.qst := rfl
@[simp] theorem State.noteSet_safe (n : RegName) (i b : Nat) : (s.noteSet n i b).safe = s.safe := rfl
@[simp] theorem State.noteSet_pwr (n : RegName) (i b : Nat) : (s.noteSet n i b).pwr = s.pwr := rfl
@[simp] theorem State.noteSet_win (n : RegName) (i b : Nat) : (s.noteSet n i b).win = s.win := rfl

/-! ### `notePf` -/

@[simp] theorem State.notePf_pending (k : Reg ⊕ (Nat × Nat)) (v : Nat) : (s.notePf k v).pending = s.pending := rfl
@[simp] theorem State.notePf_now (k : Reg ⊕ (Nat × Nat)) (v : Nat) : (s.notePf k v).now = s.now := rfl
@[simp] theorem State.notePf_freeN (k : Reg ⊕ (Nat × Nat)) (v : Nat) : (s.notePf k v).freeN = s.freeN := rfl
@[simp] theorem State.notePf_io (k : Reg ⊕ (Nat × Nat)) (v : Nat) : (s.notePf k v).io = s.io := rfl
@[simp] theorem State.notePf_rf (k : Reg ⊕ (Nat × Nat)) (v : Nat) : (s.notePf k v).rf = 
    { s.rf with pfNow := (s.now, (k, v) :: if s.rf.pfNow.1 = s.now then s.rf.pfNow.2 else []) } := rfl
@[simp] theorem State.notePf_cp (k : Reg ⊕ (Nat × Nat)) (v : Nat) : (s.notePf k v).cp = s.cp := rfl
@[simp] theorem State.notePf_en (k : Reg ⊕ (Nat × Nat)) (v : Nat) : (s.notePf k v).en = s.en := rfl
@[simp] theorem State.notePf_toy (k : Reg ⊕ (Nat × Nat)) (v : Nat) : (s.notePf k v).toy = s.toy := rfl
@[simp] theorem State.notePf_qn (k : Reg ⊕ (Nat × Nat)) (v : Nat) : (s.notePf k v).qn = s.qn := rfl
@[simp] theorem State.notePf_mem (k : Reg ⊕ (Nat × Nat)) (v : Nat) : (s.notePf k v).mem = s.mem := rfl
@[simp] theorem State.notePf_emb (k : Reg ⊕ (Nat × Nat)) (v : Nat) : (s.notePf k v).emb = s.emb := rfl
@[simp] theorem State.notePf_lnk (k : Reg ⊕ (Nat × Nat)) (v : Nat) : (s.notePf k v).lnk = s.lnk := rfl
@[simp] theorem State.notePf_seq (k : Reg ⊕ (Nat × Nat)) (v : Nat) : (s.notePf k v).seq = s.seq := rfl
@[simp] theorem State.notePf_intake (k : Reg ⊕ (Nat × Nat)) (v : Nat) : (s.notePf k v).intake = s.intake := rfl
@[simp] theorem State.notePf_qst (k : Reg ⊕ (Nat × Nat)) (v : Nat) : (s.notePf k v).qst = s.qst := rfl
@[simp] theorem State.notePf_safe (k : Reg ⊕ (Nat × Nat)) (v : Nat) : (s.notePf k v).safe = s.safe := rfl
@[simp] theorem State.notePf_pwr (k : Reg ⊕ (Nat × Nat)) (v : Nat) : (s.notePf k v).pwr = s.pwr := rfl
@[simp] theorem State.notePf_win (k : Reg ⊕ (Nat × Nat)) (v : Nat) : (s.notePf k v).win = s.win := rfl

/-! ### `send` -/

@[simp] theorem State.send_pending (o : Out) : (s.send o).pending = s.pending := rfl
@[simp] theorem State.send_now (o : Out) : (s.send o).now = s.now := rfl
@[simp] theorem State.send_freeN (o : Out) : (s.send o).freeN = s.freeN := rfl
@[simp] theorem State.send_io (o : Out) : (s.send o).io = o :: s.io := rfl
@[simp] theorem State.send_rf (o : Out) : (s.send o).rf = s.rf := rfl
@[simp] theorem State.send_cp (o : Out) : (s.send o).cp = s.cp := rfl
@[simp] theorem State.send_en (o : Out) : (s.send o).en = s.en := rfl
@[simp] theorem State.send_toy (o : Out) : (s.send o).toy = s.toy := rfl
@[simp] theorem State.send_qn (o : Out) : (s.send o).qn = s.qn := rfl
@[simp] theorem State.send_mem (o : Out) : (s.send o).mem = s.mem := rfl
@[simp] theorem State.send_emb (o : Out) : (s.send o).emb = s.emb := rfl
@[simp] theorem State.send_lnk (o : Out) : (s.send o).lnk = s.lnk := rfl
@[simp] theorem State.send_seq (o : Out) : (s.send o).seq = s.seq := rfl
@[simp] theorem State.send_intake (o : Out) : (s.send o).intake = s.intake := rfl
@[simp] theorem State.send_qst (o : Out) : (s.send o).qst = s.qst := rfl
@[simp] theorem State.send_safe (o : Out) : (s.send o).safe = s.safe := rfl
@[simp] theorem State.send_pwr (o : Out) : (s.send o).pwr = s.pwr := rfl
@[simp] theorem State.send_win (o : Out) : (s.send o).win = s.win := rfl

/-! ### `updQueue` -/

@[simp] theorem State.updQueue_pending (q : Nat) (f : Queue → Queue) : (s.updQueue q f).pending = s.pending := rfl
@[simp] theorem State.updQueue_now (q : Nat) (f : Queue → Queue) : (s.updQueue q f).now = s.now := rfl
@[simp] theorem State.updQueue_freeN (q : Nat) (f : Queue → Queue) : (s.updQueue q f).freeN = s.freeN := rfl
@[simp] theorem State.updQueue_io (q : Nat) (f : Queue → Queue) : (s.updQueue q f).io = s.io := rfl
@[simp] theorem State.updQueue_rf (q : Nat) (f : Queue → Queue) : (s.updQueue q f).rf = s.rf := rfl
@[simp] theorem State.updQueue_cp (q : Nat) (f : Queue → Queue) : (s.updQueue q f).cp = { s.cp with queues := s.cp.queues.upd q f } := rfl
@[simp] theorem State.updQueue_en (q : Nat) (f : Queue → Queue) : (s.updQueue q f).en = s.en := rfl
@[simp] theorem State.updQueue_toy (q : Nat) (f : Queue → Queue) : (s.updQueue q f).toy = s.toy := rfl
@[simp] theorem State.updQueue_qn (q : Nat) (f : Queue → Queue) : (s.updQueue q f).qn = s.qn := rfl
@[simp] theorem State.updQueue_mem (q : Nat) (f : Queue → Queue) : (s.updQueue q f).mem = s.mem := rfl
@[simp] theorem State.updQueue_emb (q : Nat) (f : Queue → Queue) : (s.updQueue q f).emb = s.emb := rfl
@[simp] theorem State.updQueue_lnk (q : Nat) (f : Queue → Queue) : (s.updQueue q f).lnk = s.lnk := rfl
@[simp] theorem State.updQueue_seq (q : Nat) (f : Queue → Queue) : (s.updQueue q f).seq = s.seq := rfl
@[simp] theorem State.updQueue_intake (q : Nat) (f : Queue → Queue) : (s.updQueue q f).intake = s.intake := rfl
@[simp] theorem State.updQueue_qst (q : Nat) (f : Queue → Queue) : (s.updQueue q f).qst = s.qst := rfl
@[simp] theorem State.updQueue_safe (q : Nat) (f : Queue → Queue) : (s.updQueue q f).safe = s.safe := rfl
@[simp] theorem State.updQueue_pwr (q : Nat) (f : Queue → Queue) : (s.updQueue q f).pwr = s.pwr := rfl
@[simp] theorem State.updQueue_win (q : Nat) (f : Queue → Queue) : (s.updQueue q f).win = s.win := rfl

/-! ### `updCtx` -/

@[simp] theorem State.updCtx_pending (i : CtxId) (f : Ctx → Ctx) : (s.updCtx i f).pending = s.pending := rfl
@[simp] theorem State.updCtx_now (i : CtxId) (f : Ctx → Ctx) : (s.updCtx i f).now = s.now := rfl
@[simp] theorem State.updCtx_freeN (i : CtxId) (f : Ctx → Ctx) : (s.updCtx i f).freeN = s.freeN := rfl
@[simp] theorem State.updCtx_io (i : CtxId) (f : Ctx → Ctx) : (s.updCtx i f).io = s.io := rfl
@[simp] theorem State.updCtx_rf (i : CtxId) (f : Ctx → Ctx) : (s.updCtx i f).rf = s.rf := rfl
@[simp] theorem State.updCtx_cp (i : CtxId) (f : Ctx → Ctx) : (s.updCtx i f).cp = { s.cp with ctxs := s.cp.ctxs.map fun x => if x.id = i then f x else x } := rfl
@[simp] theorem State.updCtx_en (i : CtxId) (f : Ctx → Ctx) : (s.updCtx i f).en = s.en := rfl
@[simp] theorem State.updCtx_toy (i : CtxId) (f : Ctx → Ctx) : (s.updCtx i f).toy = s.toy := rfl
@[simp] theorem State.updCtx_qn (i : CtxId) (f : Ctx → Ctx) : (s.updCtx i f).qn = s.qn := rfl
@[simp] theorem State.updCtx_mem (i : CtxId) (f : Ctx → Ctx) : (s.updCtx i f).mem = s.mem := rfl
@[simp] theorem State.updCtx_emb (i : CtxId) (f : Ctx → Ctx) : (s.updCtx i f).emb = s.emb := rfl
@[simp] theorem State.updCtx_lnk (i : CtxId) (f : Ctx → Ctx) : (s.updCtx i f).lnk = s.lnk := rfl
@[simp] theorem State.updCtx_seq (i : CtxId) (f : Ctx → Ctx) : (s.updCtx i f).seq = s.seq := rfl
@[simp] theorem State.updCtx_intake (i : CtxId) (f : Ctx → Ctx) : (s.updCtx i f).intake = s.intake := rfl
@[simp] theorem State.updCtx_qst (i : CtxId) (f : Ctx → Ctx) : (s.updCtx i f).qst = s.qst := rfl
@[simp] theorem State.updCtx_safe (i : CtxId) (f : Ctx → Ctx) : (s.updCtx i f).safe = s.safe := rfl
@[simp] theorem State.updCtx_pwr (i : CtxId) (f : Ctx → Ctx) : (s.updCtx i f).pwr = s.pwr := rfl
@[simp] theorem State.updCtx_win (i : CtxId) (f : Ctx → Ctx) : (s.updCtx i f).win = s.win := rfl

/-! ### `updStep` -/

@[simp] theorem State.updStep_pending (k : Nat) (f : Step → Step) : (s.updStep k f).pending = s.pending := rfl
@[simp] theorem State.updStep_now (k : Nat) (f : Step → Step) : (s.updStep k f).now = s.now := rfl
@[simp] theorem State.updStep_freeN (k : Nat) (f : Step → Step) : (s.updStep k f).freeN = s.freeN := rfl
@[simp] theorem State.updStep_io (k : Nat) (f : Step → Step) : (s.updStep k f).io = s.io := rfl
@[simp] theorem State.updStep_rf (k : Nat) (f : Step → Step) : (s.updStep k f).rf = s.rf := rfl
@[simp] theorem State.updStep_cp (k : Nat) (f : Step → Step) : (s.updStep k f).cp = { s.cp with steps := s.cp.steps.upd k (Option.map f) } := rfl
@[simp] theorem State.updStep_en (k : Nat) (f : Step → Step) : (s.updStep k f).en = s.en := rfl
@[simp] theorem State.updStep_toy (k : Nat) (f : Step → Step) : (s.updStep k f).toy = s.toy := rfl
@[simp] theorem State.updStep_qn (k : Nat) (f : Step → Step) : (s.updStep k f).qn = s.qn := rfl
@[simp] theorem State.updStep_mem (k : Nat) (f : Step → Step) : (s.updStep k f).mem = s.mem := rfl
@[simp] theorem State.updStep_emb (k : Nat) (f : Step → Step) : (s.updStep k f).emb = s.emb := rfl
@[simp] theorem State.updStep_lnk (k : Nat) (f : Step → Step) : (s.updStep k f).lnk = s.lnk := rfl
@[simp] theorem State.updStep_seq (k : Nat) (f : Step → Step) : (s.updStep k f).seq = s.seq := rfl
@[simp] theorem State.updStep_intake (k : Nat) (f : Step → Step) : (s.updStep k f).intake = s.intake := rfl
@[simp] theorem State.updStep_qst (k : Nat) (f : Step → Step) : (s.updStep k f).qst = s.qst := rfl
@[simp] theorem State.updStep_safe (k : Nat) (f : Step → Step) : (s.updStep k f).safe = s.safe := rfl
@[simp] theorem State.updStep_pwr (k : Nat) (f : Step → Step) : (s.updStep k f).pwr = s.pwr := rfl
@[simp] theorem State.updStep_win (k : Nat) (f : Step → Step) : (s.updStep k f).win = s.win := rfl

/-! ### `updArr` -/

@[simp] theorem State.updArr_pending (k : Nat) (f : Arr → Arr) : (s.updArr k f).pending = s.pending := rfl
@[simp] theorem State.updArr_now (k : Nat) (f : Arr → Arr) : (s.updArr k f).now = s.now := rfl
@[simp] theorem State.updArr_freeN (k : Nat) (f : Arr → Arr) : (s.updArr k f).freeN = s.freeN := rfl
@[simp] theorem State.updArr_io (k : Nat) (f : Arr → Arr) : (s.updArr k f).io = s.io := rfl
@[simp] theorem State.updArr_rf (k : Nat) (f : Arr → Arr) : (s.updArr k f).rf = s.rf := rfl
@[simp] theorem State.updArr_cp (k : Nat) (f : Arr → Arr) : (s.updArr k f).cp = s.cp := rfl
@[simp] theorem State.updArr_en (k : Nat) (f : Arr → Arr) : (s.updArr k f).en = { s.en with arrs := s.en.arrs.upd k f } := rfl
@[simp] theorem State.updArr_toy (k : Nat) (f : Arr → Arr) : (s.updArr k f).toy = s.toy := rfl
@[simp] theorem State.updArr_qn (k : Nat) (f : Arr → Arr) : (s.updArr k f).qn = s.qn := rfl
@[simp] theorem State.updArr_mem (k : Nat) (f : Arr → Arr) : (s.updArr k f).mem = s.mem := rfl
@[simp] theorem State.updArr_emb (k : Nat) (f : Arr → Arr) : (s.updArr k f).emb = s.emb := rfl
@[simp] theorem State.updArr_lnk (k : Nat) (f : Arr → Arr) : (s.updArr k f).lnk = s.lnk := rfl
@[simp] theorem State.updArr_seq (k : Nat) (f : Arr → Arr) : (s.updArr k f).seq = s.seq := rfl
@[simp] theorem State.updArr_intake (k : Nat) (f : Arr → Arr) : (s.updArr k f).intake = s.intake := rfl
@[simp] theorem State.updArr_qst (k : Nat) (f : Arr → Arr) : (s.updArr k f).qst = s.qst := rfl
@[simp] theorem State.updArr_safe (k : Nat) (f : Arr → Arr) : (s.updArr k f).safe = s.safe := rfl
@[simp] theorem State.updArr_pwr (k : Nat) (f : Arr → Arr) : (s.updArr k f).pwr = s.pwr := rfl
@[simp] theorem State.updArr_win (k : Nat) (f : Arr → Arr) : (s.updArr k f).win = s.win := rfl

/-! ### `updIsl` -/

@[simp] theorem State.updIsl_pending (k : Nat) (f : Isl → Isl) : (s.updIsl k f).pending = s.pending := rfl
@[simp] theorem State.updIsl_now (k : Nat) (f : Isl → Isl) : (s.updIsl k f).now = s.now := rfl
@[simp] theorem State.updIsl_freeN (k : Nat) (f : Isl → Isl) : (s.updIsl k f).freeN = s.freeN := rfl
@[simp] theorem State.updIsl_io (k : Nat) (f : Isl → Isl) : (s.updIsl k f).io = s.io := rfl
@[simp] theorem State.updIsl_rf (k : Nat) (f : Isl → Isl) : (s.updIsl k f).rf = s.rf := rfl
@[simp] theorem State.updIsl_cp (k : Nat) (f : Isl → Isl) : (s.updIsl k f).cp = s.cp := rfl
@[simp] theorem State.updIsl_en (k : Nat) (f : Isl → Isl) : (s.updIsl k f).en = s.en := rfl
@[simp] theorem State.updIsl_toy (k : Nat) (f : Isl → Isl) : (s.updIsl k f).toy = s.toy := rfl
@[simp] theorem State.updIsl_qn (k : Nat) (f : Isl → Isl) : (s.updIsl k f).qn = s.qn := rfl
@[simp] theorem State.updIsl_mem (k : Nat) (f : Isl → Isl) : (s.updIsl k f).mem = s.mem := rfl
@[simp] theorem State.updIsl_emb (k : Nat) (f : Isl → Isl) : (s.updIsl k f).emb = s.emb := rfl
@[simp] theorem State.updIsl_lnk (k : Nat) (f : Isl → Isl) : (s.updIsl k f).lnk = s.lnk := rfl
@[simp] theorem State.updIsl_seq (k : Nat) (f : Isl → Isl) : (s.updIsl k f).seq = s.seq := rfl
@[simp] theorem State.updIsl_intake (k : Nat) (f : Isl → Isl) : (s.updIsl k f).intake = s.intake := rfl
@[simp] theorem State.updIsl_qst (k : Nat) (f : Isl → Isl) : (s.updIsl k f).qst = s.qst := rfl
@[simp] theorem State.updIsl_safe (k : Nat) (f : Isl → Isl) : (s.updIsl k f).safe = s.safe := rfl
@[simp] theorem State.updIsl_pwr (k : Nat) (f : Isl → Isl) : (s.updIsl k f).pwr = { s.pwr with isl := s.pwr.isl.upd k f } := rfl
@[simp] theorem State.updIsl_win (k : Nat) (f : Isl → Isl) : (s.updIsl k f).win = s.win := rfl

/-! ### `keeping` -/

@[simp] theorem State.keeping_pending (u : State) : (s.keeping u).pending = u.pending := rfl
@[simp] theorem State.keeping_now (u : State) : (s.keeping u).now = s.now := rfl
@[simp] theorem State.keeping_freeN (u : State) : (s.keeping u).freeN = s.freeN := rfl
@[simp] theorem State.keeping_io (u : State) : (s.keeping u).io = s.io := rfl
@[simp] theorem State.keeping_rf (u : State) : (s.keeping u).rf = s.rf := rfl
@[simp] theorem State.keeping_cp (u : State) : (s.keeping u).cp = s.cp := rfl
@[simp] theorem State.keeping_en (u : State) : (s.keeping u).en = s.en := rfl
@[simp] theorem State.keeping_toy (u : State) : (s.keeping u).toy = s.toy := rfl
@[simp] theorem State.keeping_qn (u : State) : (s.keeping u).qn = s.qn := rfl
@[simp] theorem State.keeping_mem (u : State) : (s.keeping u).mem = s.mem := rfl
@[simp] theorem State.keeping_emb (u : State) : (s.keeping u).emb = s.emb := rfl
@[simp] theorem State.keeping_lnk (u : State) : (s.keeping u).lnk = s.lnk := rfl
@[simp] theorem State.keeping_seq (u : State) : (s.keeping u).seq = s.seq := rfl
@[simp] theorem State.keeping_intake (u : State) : (s.keeping u).intake = s.intake := rfl
@[simp] theorem State.keeping_qst (u : State) : (s.keeping u).qst = s.qst := rfl
@[simp] theorem State.keeping_safe (u : State) : (s.keeping u).safe = s.safe := rfl
@[simp] theorem State.keeping_pwr (u : State) : (s.keeping u).pwr = s.pwr := rfl
@[simp] theorem State.keeping_win (u : State) : (s.keeping u).win = s.win := rfl

end Sys2Proof.Machine
end

