-- ==== Sys2Proof/Laws/Ops.lean ====
section
/-! SUPPORT. What the shared operations do, one lemma for each: tables, registers, queues, contexts, steps, and the answer of a command. -/

namespace Sys2Proof

/-! ### Tables with a default -/

/-- An entry dropped is not found. -/
theorem Tab.look_drop {κ α : Type} [DecidableEq κ] (k j : κ) (l : List (κ × α)) :
    Tab.look j (Tab.drop k l) = if j = k then none else Tab.look j l := by
  induction l with
  | nil => simp [Tab.drop, Tab.look]
  | cons e l ih =>
    obtain ⟨a, v⟩ := e
    simp only [Tab.drop]
    by_cases hak : a = k
    · rw [if_pos hak, ih]
      by_cases hjk : j = k
      · simp [hjk]
      · simp only [hjk, if_false, Tab.look]
        rw [if_neg (fun h => hjk (h.symm.trans hak))]
    · rw [if_neg hak]
      simp only [Tab.look]
      by_cases haj : a = j
      · rw [if_pos haj, if_pos haj, if_neg (fun h => hak (haj.trans h))]
      · rw [if_neg haj, if_neg haj, ih]

/-- A table after a key is set. -/
@[simp] theorem Tab.get_set {κ α : Type} [DecidableEq κ] (t : Tab κ α) (k j : κ) (v : α) :
    (t.set k v).get j = if j = k then v else t.get j := by
  simp only [Tab.get, Tab.set, Tab.look]
  by_cases h : k = j
  · simp [h]
  · rw [if_neg h, Tab.look_drop, if_neg (Ne.symm h), if_neg (Ne.symm h)]

/-- A table after a key is changed by a function. -/
@[simp] theorem Tab.get_upd {κ α : Type} [DecidableEq κ] (t : Tab κ α) (k j : κ) (f : α → α) :
    (t.upd k f).get j = if j = k then f (t.get k) else t.get j := by
  simp [Tab.upd]

/-- A table after a key is put back to the default. -/
@[simp] theorem Tab.get_clear {κ α : Type} [DecidableEq κ] (t : Tab κ α) (k j : κ) :
    (t.clear k).get j = if j = k then t.dflt else t.get j := by
  simp only [Tab.get, Tab.clear, Tab.look_drop]
  by_cases h : j = k <;> simp [h]

/-- An empty table gives the default. -/
@[simp] theorem Tab.get_of {κ α : Type} [DecidableEq κ] (d : α) (k : κ) : (Tab.of d : Tab κ α).get k = d := rfl

namespace Machine

/-! ### Registers -/

/-- The register file after a register is set. -/
@[simp] theorem RegFile.get_set (f : RegFile) (r r' : Reg) (v : W64) : (f.set r v).get r' = if r' = r then v else f.get r' := by
  simp only [RegFile.get, RegFile.set, assoc?, assocSet, Tab.look]
  by_cases h : r = r'
  · simp [h]
  · rw [if_neg h, Tab.look_drop, if_neg (Ne.symm h), if_neg (Ne.symm h)]

/-- A register after a register is set. -/
@[simp] theorem State.rget_rset (s : State) (r r' : Reg) (v : W64) : (s.rset r v).rget r' = if r' = r then v else s.rget r' := by
  simp [State.rget]

/-- A register after a register is put to a number. -/
@[simp] theorem State.rget_rput (s : State) (n : RegName) (i j v : Nat) (r : Reg) :
    (s.rput n i j v).rget r = if r = ⟨n, i, j⟩ then w64 v else s.rget r := by
  simp [State.rput]

/-- A register as a number after a register is put to a number. -/
theorem State.rnat_rput (s : State) (n m : RegName) (i j v i' j' : Nat) :
    (s.rput n i j v).rnat m i' j' = if (⟨m, i', j'⟩ : Reg) = ⟨n, i, j⟩ then v % 2 ^ 64 else s.rnat m i' j' := by
  simp only [State.rnat, State.rget_rput]
  by_cases h : (⟨m, i', j'⟩ : Reg) = ⟨n, i, j⟩
  · rw [if_pos h, if_pos h]; exact BitVec.toNat_ofNat v 64
  · rw [if_neg h, if_neg h]

/-- Registers do not change with anything but the register file. -/
@[simp] theorem State.rget_withCp (s : State) (f : Cp → Cp) (r : Reg) : (s.withCp f).rget r = s.rget r := rfl
@[simp] theorem State.rget_withEn (s : State) (f : Engines → Engines) (r : Reg) : (s.withEn f).rget r = s.rget r := rfl
@[simp] theorem State.rget_withMem (s : State) (f : Mem → Mem) (r : Reg) : (s.withMem f).rget r = s.rget r := rfl
@[simp] theorem State.rget_withToy (s : State) (f : Toy → Toy) (r : Reg) : (s.withToy f).rget r = s.rget r := rfl
@[simp] theorem State.rget_keeping (s t : State) (r : Reg) : (s.keeping t).rget r = s.rget r := rfl

/-! ### Queues, contexts, steps -/

/-- A queue after a queue is changed. -/
@[simp] theorem State.queue_updQueue (s : State) (q k : Nat) (f : Queue → Queue) :
    (s.updQueue q f).queue k = if k = q then f (s.queue q) else s.queue k := by
  simp [State.queue]

/-- A step after a step is changed. -/
theorem State.step?_updStep (s : State) (k j : Nat) (f : Step → Step) :
    (s.updStep k f).step? j = if j = k then (s.step? k).map f else s.step? j := by
  simp [State.step?]

/-- A context after a context is changed by a function that keeps identities. -/
theorem State.ctx?_updCtx (s : State) (i j : CtxId) (f : Ctx → Ctx) (hf : ∀ x, (f x).id = x.id) :
    (s.updCtx i f).ctx? j = if j = i then (s.ctx? i).map f else s.ctx? j := by
  simp only [State.ctx?, State.updCtx_cp]
  induction s.cp.ctxs with
  | nil => by_cases h : j = i <;> simp [h]
  | cons x l ih =>
    simp only [List.map_cons, List.find?_cons]
    by_cases hx : x.id = i
    · by_cases hj : j = i
      · subst hj; simp [hx, hf]
      · rw [if_neg hj] at ih
        have hij : ¬ i = j := Ne.symm hj
        simp only [hx, if_true, hf, hij, decide_false, if_neg hj]
        exact ih
    · by_cases hj : j = i
      · subst hj
        rw [if_pos rfl] at ih
        simp only [hx, if_false, decide_false, if_true]
        exact ih
      · rw [if_neg hj] at ih
        rw [if_neg hj]
        simp only [hx, if_false]
        by_cases hxj : x.id = j
        · simp [hxj]
        · simp only [hxj, decide_false]; exact ih

/-! ### The answer of a command -/

/-- A command whose operands name units of the device has a next state, with the queue of waiting commands as it was. -/
@[simp] theorem answer_true (s t : State) : answer true s t = .next (t.keeping s) := rfl

/-- A command that names another unit stops. -/
@[simp] theorem answer_false (s t : State) : answer false s t = .fault .noSuchUnit := rfl

/-- What an answer can be. -/
theorem answer_next_iff (ok : Bool) (s t u : State) : answer ok s t = .next u ↔ ok = true ∧ u = t.keeping s := by
  cases ok
  · simp
  · simp [eq_comm]

/-- A packet that begins: its row does what the opcode starts with. -/
theorem State.runCmd_begins {s : State} {op q c : Nat} {x : Ctx} (h : s.begins op q c x) (start again : State → Ctx → State) :
    s.runCmd op q c start again = start s x := by
  obtain ⟨-, hr, hx, ho, hp, hw⟩ := h
  simp [State.runCmd, hr, hx, ho, hp, Ctx.loading, hw]

/-- The answer of a packet that begins. -/
theorem answer_begins {s t : State} {op q c : Nat} {x : Ctx} (h : s.begins op q c x) (start again : State → Ctx → State)
    (e : start s x = t) : answer (packetOk q c) s (s.runCmd op q c start again) = .next (t.keeping s) := by
  rw [State.runCmd_begins h, h.1, answer_true, e]

/-- A command that pays what it reads and writes goes on. -/
theorem State.gate_paid {s t : State} {x : Ctx} {n : Nat} (h : s.pay x n = (t, true)) (k : State → State) : s.gate x n k = k t := by
  simp [State.gate, h]

/-- A packet that waits: its row looks at it again. -/
theorem State.runCmd_waits {s : State} {op q c : Nat} {x : Ctx} (h : s.waitsIn op q c x) (start again : State → Ctx → State) :
    s.runCmd op q c start again = again s x := by
  obtain ⟨-, hr, hx, ho, hp⟩ := h
  simp [State.runCmd, hr, hx, ho, hp]

/-- The answer of a packet that waits. -/
theorem answer_waits {s t : State} {op q c : Nat} {x : Ctx} (h : s.waitsIn op q c x) (start again : State → Ctx → State)
    (e : again s x = t) : answer (packetOk q c) s (s.runCmd op q c start again) = .next (t.keeping s) := by
  rw [State.runCmd_waits h, h.1, answer_true, e]

/-- Where no packet of the opcode is in flight at that place, its row changes nothing. -/
theorem State.runCmd_absent {s : State} {op q c : Nat} (h : s.ctx? (cmdId q c) = none) (start again : State → Ctx → State) :
    s.runCmd op q c start again = s := by
  simp [State.runCmd, h]

/-- A register write that reaches the device. -/
theorem State.fromHost_reached {s : State} {fn : Nat} (h : s.barUp fn = true) (f : State → State) : s.fromHost fn f = f s := by
  simp [State.fromHost, h]

/-- The answer of a register access that reaches the device. -/
theorem answer_reached {s t : State} {fn : Nat} {b : Bool} (h : s.barUp fn = true) (hb : b = true) (f : State → State) (e : f s = t) :
    answer b s (s.fromHost fn f) = .next (t.keeping s) := by
  rw [State.fromHost_reached h, hb, answer_true, e]

/-- The answer of a command that leads to a state. -/
theorem answer_to {s t u : State} {b : Bool} (hb : b = true) (e : u = t) : answer b s u = .next (t.keeping s) := by
  rw [hb, e, answer_true]

/-- Something on an island whose clock runs. -/
theorem State.onIsland_runs {s : State} {k : Nat} (h : s.clockOn k = true) (f : State → State) : s.onIsland k f = f s := by
  simp [State.onIsland, h]

/-- The answer of something on an island whose clock runs. -/
theorem answer_runs {s t : State} {k : Nat} {b : Bool} (h : s.clockOn k = true) (hb : b = true) (f : State → State) (e : f s = t) :
    answer b s (s.onIsland k f) = .next (t.keeping s) := by
  rw [State.onIsland_runs h, hb, answer_true, e]

/-- Something the CP does while it runs. -/
theorem State.onCp_runs {s : State} (h : s.cpRuns = true) (f : State → State) : s.onCp f = f s := by
  simp [State.onCp, h]

end Machine
end Sys2Proof
end

