-- ==== Sys2Proof/Tests/Slice0.lean ====
section
/-! SUPPORT. Tests: ill-formed commands for each check of WellFormed; for each statement, states and operands that meet its hypotheses, clause
by clause; and single steps with results read from the manual's rules. -/

open Sys2Proof Sys2Proof.Machine

namespace Sys2Proof.Tests

set_option Elab.async false

/-! ### Small states -/

/-- The context of packet 0 of queue 1, from tenant 0 in partition 0: opcode, SUBOP, and operand words from word 2 on. -/
def pk (op sub : Nat) (ws : List Nat) : Ctx :=
  { id := ⟨1, 0⟩, fn := 1, part := some 0, sid := 0, epoch := 0
    words := (w32 (op + 65536 * sub) :: 0 :: ws.map w32) ++ List.replicate (14 - ws.length) 0
    phase := .dispatched, status := 0, detail := 0, evt := false, fetchedAt := 0, begunAt := 0, work := .none }

/-- The state after reset with one context in flight on a running queue, in an implicit step, its function a bus master. -/
def one (x : Ctx) : State :=
  { State.reset with
    cp :=
      { Cp.reset with
        ctxs := [x]
        queues := Cp.reset.queues.set 1 { mode := .running, enable := true, tail := 1, head := 1, ringBase := 0x10000, cplBase := 0x20000 }
        steps := Cp.reset.steps.set 0 (some (Step.fresh x false))
        nextSid := 1
        fns := Cp.reset.fns.set 1 ⟨true, false, false, 0, false⟩ } }

/-- `one` of a fresh packet. -/
def run (op sub : Nat) (ws : List Nat) : State := one (pk op sub ws)

/-- The context of `one`, if it is dispatched and has the opcode. -/
def starts (s : State) (op : Nat) (x : Ctx) : Bool :=
  packetOk 1 0 && s.cpRuns && decide (s.ctx? (cmdId 1 0) = some x) && decide (x.op = op) && decide (x.phase = .dispatched) &&
    decide (x.work = .none)

theorem begins_of {s : State} {op : Nat} {x : Ctx} (h : starts s op x = true) : s.begins op 1 0 x := by
  simp only [starts, Bool.and_eq_true, decide_eq_true_eq] at h
  exact ⟨h.1.1.1.1.1, h.1.1.1.1.2, h.1.1.1.2, h.1.1.2, h.1.2, h.2⟩

/-- A function that may fail does not. -/
def good {ε α : Type} : Except ε α → Bool
  | .ok _ => true
  | .error _ => false

theorem ok_of {ε α : Type} {r : Except ε α} (h : good r = true) : ∃ a, r = .ok a := by
  cases r with
  | ok a => exact ⟨a, rfl⟩
  | error e => simp [good] at h

theorem some_of {α : Type} {r : Option α} (h : r.isSome = true) : ∃ a, r = some a := Option.isSome_iff_exists.mp h

/-! ### Every check of WellFormed refuses a unit the device does not have -/

/-- One command for each check, with the first number past the end of its range. -/
theorem test_ill_formed :
    ([.NOP 16384 0 [], .NOP 0 (2 ^ 32) [], .DOORBELL 65 0 4 0, .QUEUE_ENABLE 0 16384, .QUEUE_ENABLE 65 0, .QUEUE_RANGE_WRITE 64 0,
      .SCHED_CLR_MAX 16, .ARRAY_FENCE_CLEAR 16 0, .LINK_ENABLE 16, .NVME_DRIVE_ONLINE 8 true, .MSIX_SEND 0 64, .MSIX_SEND 1 32,
      .FETCH_READ_RETURN 16384 ⟨false, []⟩, .PERIOD_BOUNDARY ⟨[⟨64, 0, 0⟩], false⟩, .TILE_DISPATCH 64 [], .SLICE_END (.memCopy 8) 1 true [],
      .SLICE_END (.quisto 2) 1 true [], .NVME_COMPLETION 0 0 [], .NVME_COMPLETION 0 65 [], .ZERO_ENGINE_PAGE_DONE 8, .TOYCHEST_SLOT_ZEROED 256,
      .MEM_PARITY_RETRY (64 * 768 * 32768) 0 false true none, .MEM_PARITY_RETRY 0 64 false true none, .LANE_REPAIR_DONE 64,
      .NVME_AREA_ACCESS 65536 0 4 none, .CONTROL_INTERVAL 0 [⟨33, 0, 0, 0⟩] [], .THROTTLE_DEMAND_DECAY 0 5, .DROOP_DETECT 33,
      .STACK_HEAT_ESCALATE 16, .ENTROPY_HEALTH_FAIL 2 1, .ENTROPY_HEALTH_FAIL 0 0, .ENTROPY_HEALTH_FAIL 0 4, .FLR_VF 64,
      .STACK_TRAIN (some 64), .LINK_TRAIN [(16, 15)], .SELF_TEST [64] true true, .MCTP_SET_ENDPOINT_ID 256, .FAULT_LOG_READ 256,
      .COMPLETION_TIMEOUT (.ring 16384) []] : List Instr).all (fun c => !c.wellFormed) = true := by decide +kernel

/-- The last number of each range is the device's. -/
theorem test_well_formed :
    ([.NOP 16383 (2 ^ 32 - 1) [], .DOORBELL 64 0 4 0, .QUEUE_ENABLE 64 16383, .QUEUE_RANGE_WRITE 63 0, .SCHED_CLR_MAX 15, .LINK_ENABLE 15,
      .MSIX_SEND 0 63, .MSIX_SEND 64 31, .SLICE_END (.gather 7) 1 true [], .NVME_COMPLETION 7 64 [], .TOYCHEST_SLOT_ZEROED 255,
      .MEM_PARITY_RETRY (64 * 768 * 32768 - 1) 63 false true none, .DROOP_DETECT 32, .THROTTLE_DEMAND_DECAY 32 4, .FLR_VF 63, .STACK_TRAIN none,
      .ENTROPY_HEALTH_FAIL 1 3, .FAULT_LOG_READ 255] : List Instr).all (fun c => c.wellFormed) = true := by decide +kernel

/-! ### The queue -/

theorem witness_front_command : ∃ (c : Instr) (rest : List Instr) (s : State), s.pending = c :: rest :=
  ⟨.EPOCH_OPEN, [], { State.reset with pending := [.EPOCH_OPEN] }, rfl⟩

theorem witness_empty_queue : State.reset.pending = [] := rfl

theorem witness_sound_queue : { State.reset with pending := [.EPOCH_OPEN, .FETCH_TURN] }.queueSound := by
  intro c h
  simp only [List.mem_cons, List.not_mem_nil, or_false] at h
  rcases h with rfl | rfl <;> rfl

/-! ### Control packets -/

theorem witness_control_begin :
    (run 0 0 []).begins 0x00 1 0 (pk 0 0 []) ∧ (run 1 0 []).begins 0x01 1 0 (pk 1 0 []) ∧
    (run 3 0 [5, 0, 7]).begins 0x03 1 0 (pk 3 0 [5, 0, 7]) :=
  ⟨begins_of (by decide +kernel), begins_of (by decide +kernel), begins_of (by decide +kernel)⟩

theorem witness_step_end :
    (run 2 0 []).begins 0x02 1 0 (pk 2 0 []) ∧ (run 2 0 []).step? 0 = some (Step.fresh (pk 2 0 []) false) ∧
    (∀ y ∈ (run 2 0 []).stepCtxs 0, y.id ≠ (pk 2 0 []).id → y.phase = .done) ∧ ∀ r ∈ (run 2 0 []).emb.reqs, r.sid ≠ 0 :=
  ⟨begins_of (by decide +kernel), by decide +kernel, by decide +kernel, by decide +kernel⟩

theorem witness_fence_wait :
    ((run 4 0 [0, 0, 0]).begins 0x04 1 0 (pk 4 0 [0, 0, 0]) ∧
      ((pk 4 0 [0, 0, 0]).a 4).toNat ≤ ((run 4 0 [0, 0, 0]).rget (waitFence (pk 4 0 [0, 0, 0]))).toNat) ∧
    ((run 4 0 [0, 0, 1]).begins 0x04 1 0 (pk 4 0 [0, 0, 1]) ∧
      ((run 4 0 [0, 0, 1]).rget (waitFence (pk 4 0 [0, 0, 1]))).toNat < ((pk 4 0 [0, 0, 1]).a 4).toNat) :=
  ⟨⟨begins_of (by decide +kernel), by decide +kernel⟩, ⟨begins_of (by decide +kernel), by decide +kernel⟩⟩

theorem witness_fence_wait_expires :
    ∃ (s : State) (x : Ctx), s.waitsIn 0x04 1 0 x ∧ x.work = .waits 0 0 0 ∧ x.w 6 ≠ 0 ∧ x.w 6 * 1000 ≤ ticks 0 s.now :=
  ⟨{ one { pk 4 0 [0, 0, 1, 0, 2] with phase := .running, work := .waits 0 0 0 } with now := 2000 },
    { pk 4 0 [0, 0, 1, 0, 2] with phase := .running, work := .waits 0 0 0 }, by unfold State.waitsIn; decide +kernel, rfl, by decide +kernel,
    by decide +kernel⟩

/-! ### Models, pages -/

/-- A state with a model of tenant 0 under handle 0 in slot 0. -/
def withModel (s : State) (m : Model) : State :=
  s.withToy fun y => { y with models := y.models.set (0, 0) (some m), slots := y.slots.set 0 ⟨.resident, some (0, 0), 0⟩ }

/-- A resident model of one slot. -/
def small : Model := ⟨4096, [0], true, false, 0, 0, none, 0⟩

theorem witness_model_load_resident :
    (withModel (run 0x10 0 [0, 4096, 0, 0]) small).begins 0x10 1 0 (pk 0x10 0 [0, 4096, 0, 0]) ∧
    (withModel (run 0x10 0 [0, 4096, 0, 0]) small).evictAhead (pk 0x10 0 [0, 4096, 0, 0]) 0 = false ∧
    (withModel (run 0x10 0 [0, 4096, 0, 0]) small).model? (pk 0x10 0 [0, 4096, 0, 0]).ten 0 = some small ∧ small.resident = true :=
  ⟨begins_of (by decide +kernel), by decide +kernel, by decide +kernel, rfl⟩

theorem witness_model_load_private :
    ∃ (s : State) (x : Ctx) (t : State), s.begins 0x10 1 0 x ∧ s.evictAhead x 0 = false ∧ s.model? x.ten 0 = none ∧ s.isolated (x.part.getD 0) = true ∧
      (s.updCtx x.id fun y => { y with phase := .running }).claimSlots { x with phase := .running } x.ten 0 (x.part.getD 0 + 1) (x.w 3) (x.a 4) 0
        = some t := by
  let s := ((run 0x10 0 [0, 4096, 0, 0]).rput .mode 0 0 1).withToy fun y => { y with slots := y.slots.set 5 ⟨.empty, none, 1⟩ }
  let x := pk 0x10 0 [0, 4096, 0, 0]
  obtain ⟨t, h⟩ := some_of (r := (s.updCtx x.id fun y => { y with phase := .running }).claimSlots { x with phase := .running } x.ten 0
    (x.part.getD 0 + 1) (x.w 3) (x.a 4) 0) (by decide +kernel)
  exact ⟨s, x, t, begins_of (by decide +kernel), by decide +kernel, by decide +kernel, by decide +kernel, h⟩

/-- The whole pooled group: 256 slots, for an image of 128 MiB. -/
theorem witness_model_load_pooled :
    ∃ (s : State) (x : Ctx) (t : State), s.begins 0x10 1 0 x ∧ s.evictAhead x 0 = false ∧ s.model? x.ten 0 = none ∧
      s.isolated (x.part.getD 0) = false ∧ slotsFor (x.w 3) ≤ (s.updCtx x.id fun y => { y with phase := .running }).pooledLimit x.id.q ∧
      slotsFor (x.w 3) ≤ (s.slotsIn 0 .empty).length + (s.slotsIn 0 .zeroing).length ∧
      (s.updCtx x.id fun y => { y with phase := .running }).claimSlots { x with phase := .running } x.ten 0 0 (x.w 3) (x.a 4) 0 = some t := by
  let s := run 0x10 0 [0, 134217728, 0, 0]
  let x := pk 0x10 0 [0, 134217728, 0, 0]
  obtain ⟨t, h⟩ := some_of (r := (s.updCtx x.id fun y => { y with phase := .running }).claimSlots { x with phase := .running } x.ten 0 0
    (x.w 3) (x.a 4) 0) (by decide +kernel)
  exact ⟨s, x, t, begins_of (by decide +kernel), by decide +kernel, by decide +kernel, by decide +kernel, by decide +kernel, by decide +kernel, h⟩

/-- No MODEL_EVICT comes before the one packet in flight. -/
theorem witness_no_evict_ahead : (run 0x11 0 []).evictAhead (pk 0x11 0 []) 0 = false ∧ (run 0x12 0 []).evictAhead (pk 0x12 0 []) 0 = false :=
  ⟨by decide +kernel, by decide +kernel⟩

/-- Each clause of MODEL_PIN: absent, not resident, isolated, unpin, pin at the limit, pin above the limit. -/
theorem witness_model_pin :
    (∃ s x, State.begins s 0x11 1 0 x ∧ s.model? x.ten 0 = none) ∧
    (∃ s x m, State.begins s 0x11 1 0 x ∧ s.model? x.ten 0 = some m ∧ m.resident = false) ∧
    (∃ s x m, State.begins s 0x11 1 0 x ∧ s.model? x.ten 0 = some m ∧ m.resident = true ∧ s.isolated 0 = true) ∧
    (∃ s x m, State.begins s 0x11 1 0 x ∧ s.model? x.ten 0 = some m ∧ m.resident = true ∧ s.isolated 0 = false ∧ x.sub = 1) ∧
    (∃ s x m, State.begins s 0x11 1 0 x ∧ s.model? x.ten 0 = some m ∧ m.resident = true ∧ s.isolated 0 = false ∧ x.sub = 0 ∧
      s.pinnedSlots 0 + m.slots.length = s.rfld .toy 16 9 0) ∧
    (∃ s x m, State.begins s 0x11 1 0 x ∧ s.model? x.ten 0 = some m ∧ m.resident = true ∧ s.isolated 0 = false ∧ x.sub = 0 ∧
      m.pinned = false ∧ s.rfld .toy 16 9 0 < s.pinnedSlots 0 + m.slots.length) :=
  ⟨⟨run 0x11 0 [], pk 0x11 0 [], begins_of (by decide +kernel), by decide +kernel⟩,
   ⟨withModel (run 0x11 0 []) { small with resident := false }, pk 0x11 0 [], _, begins_of (by decide +kernel), rfl, rfl⟩,
   ⟨withModel ((run 0x11 0 []).rput .mode 0 0 1) small, pk 0x11 0 [], _, begins_of (by decide +kernel), rfl, rfl, by decide +kernel⟩,
   ⟨withModel (run 0x11 1 []) small, pk 0x11 1 [], _, begins_of (by decide +kernel), rfl, rfl, by decide +kernel, by decide +kernel⟩,
   ⟨withModel ((run 0x11 0 []).rput .toy 0 0 65536) small, pk 0x11 0 [], _, begins_of (by decide +kernel), rfl, rfl, by decide +kernel,
     by decide +kernel, by decide +kernel⟩,
   ⟨withModel ((run 0x11 0 []).rput .toy 0 0 0) small, pk 0x11 0 [], _, begins_of (by decide +kernel), rfl, rfl, by decide +kernel,
     by decide +kernel, rfl, by decide +kernel⟩⟩

theorem witness_models_leave :
    ((run 0x12 0 []).begins 0x12 1 0 (pk 0x12 0 []) ∧ (run 0x12 0 []).model? 0 0 = none) ∧
    ((withModel (run 0x12 0 []) small).begins 0x12 1 0 (pk 0x12 0 []) ∧ (withModel (run 0x12 0 []) small).model? 0 0 = some small ∧
      (∀ y ∈ (withModel (run 0x12 0 []) small).cp.ctxs.takeWhile fun y => y.id ≠ (pk 0x12 0 []).id,
        y.fn = 1 → y.phase ≠ .done → (withModel (run 0x12 0 []) small).handleOf y ≠ some 0)) ∧
    (∃ s : State, (s.toy.slots.get 255).st = .zeroing ∧ s.rfld .islStatus 0 12 (255 / 16) ≠ 0) ∧
    (∃ s : State, 64 ≤ s.toy.boundaries) :=
  ⟨⟨begins_of (by decide +kernel), by decide +kernel⟩, ⟨begins_of (by decide +kernel), by decide +kernel, by decide +kernel⟩,
   ⟨State.reset.withToy fun y => { y with slots := y.slots.set 255 ⟨.zeroing, none, 0⟩ }, by decide +kernel, by decide +kernel⟩,
   ⟨State.reset.withToy fun y => { y with boundaries := 64 }, by decide +kernel⟩⟩

/-- A FREE page installs at once; with every page of the channel but one DIRTY page taken, the allocation waits for the zero engine. -/
theorem witness_page_alloc :
    (∃ s x t l, State.begins s 0x80 1 0 x ∧ s.entsTaken x.fn 0 1 = false ∧
      s.allocPages x.id (.map x.fn 0 false) (allocPart x) (x.a 4) (bit (x.w 2) 20) 1 = .ok (t, l) ∧ t.claimsOf x.id = 0) ∧
    (∃ s x t l, State.begins s 0x80 1 0 x ∧ s.entsTaken x.fn 0 1 = false ∧
      s.allocPages x.id (.map x.fn 0 false) (allocPart x) (x.a 4) (bit (x.w 2) 20) 1 = .ok (t, l) ∧ t.claimsOf x.id ≠ 0) := by
  let x := pk 0x80 0 [1, 0, 1, 0]
  let a := run 0x80 0 [1, 0, 1, 0]
  let b := (run 0x80 0 [1, 0, 1, 0]).withMem fun m =>
    { m with pages := ⟨⟨.held, 0, none, none, none⟩, [(0, ⟨.dirty, 0, none, none, none⟩)]⟩, dirty := m.dirty.set 0 [0] }
  have ha : ∃ r, a.allocPages x.id (.map x.fn 0 false) (allocPart x) (x.a 4) (bit (x.w 2) 20) 1 = .ok r := ok_of (by decide +kernel)
  have hb : ∃ r, b.allocPages x.id (.map x.fn 0 false) (allocPart x) (x.a 4) (bit (x.w 2) 20) 1 = .ok r := ok_of (by decide +kernel)
  obtain ⟨ra, ea⟩ := ha
  obtain ⟨rb, eb⟩ := hb
  have ca : (match a.allocPages x.id (.map x.fn 0 false) (allocPart x) (x.a 4) (bit (x.w 2) 20) 1 with
    | .ok r => decide (r.1.claimsOf x.id = 0) | .error _ => false) = true := by decide +kernel
  have cb : (match b.allocPages x.id (.map x.fn 0 false) (allocPart x) (x.a 4) (bit (x.w 2) 20) 1 with
    | .ok r => decide (r.1.claimsOf x.id ≠ 0) | .error _ => false) = true := by decide +kernel
  rw [ea] at ca
  rw [eb] at cb
  exact ⟨⟨a, x, ra.1, ra.2, begins_of (by decide +kernel), by decide +kernel, ea, of_decide_eq_true ca⟩,
    ⟨b, x, rb.1, rb.2, begins_of (by decide +kernel), by decide +kernel, eb, of_decide_eq_true cb⟩⟩

/-- A state in which map entry 0 of function 1 holds page 0. -/
def mapped (s : State) (sealed : Bool) : State := s.withMem fun m => { m with
  maps := m.maps.set (1, 0) ⟨true, 0, sealed, 0, false⟩, pages := m.pages.set 0 ⟨.held, 0, none, some (1, 0), none⟩ }

theorem witness_page_free_zero_copy :
    ((mapped (run 0x81 0 [1, 0]) false).begins 0x81 1 0 (pk 0x81 0 [1, 0]) ∧
      ∀ j < 1, ((mapped (run 0x81 0 [1, 0]) false).mem.maps.get (1, 0 + j)).valid = true ∧
        ((mapped (run 0x81 0 [1, 0]) false).mem.maps.get (1, 0 + j)).sealed = false) ∧
    (mapped (run 0x82 0 [0, 0, 0, 0x80000000, 4096]) false).begins 0x82 1 0 (pk 0x82 0 [0, 0, 0, 0x80000000, 4096]) ∧
    ((run 0x83 0 [0, 0, 0, 0x80000000, 0, 0, 1]).begins 0x83 1 0 (pk 0x83 0 [0, 0, 0, 0x80000000, 0, 0, 1]) ∧
      isDev ((pk 0x83 0 [0, 0, 0, 0x80000000, 0, 0, 1]).a 4) = true) ∧
    ((run 0x83 0 [0, 0, 0, 0, 0, 0x80000000, 1]).begins 0x83 1 0 (pk 0x83 0 [0, 0, 0, 0, 0, 0x80000000, 1]) ∧
      isDev ((pk 0x83 0 [0, 0, 0, 0, 0, 0x80000000, 1]).a 4) = false) :=
  ⟨⟨begins_of (by decide +kernel), by decide +kernel⟩, begins_of (by decide +kernel), ⟨begins_of (by decide +kernel), by decide +kernel⟩,
   ⟨begins_of (by decide +kernel), by decide +kernel⟩⟩

/-! ### The epoch -/

/-- The state with an epoch open and one register in the shadow. -/
def epoch (s : State) (sh : List (Reg × W64)) : State := { s.rput .epochCtrl 0 0 1 with rf := { (s.rput .epochCtrl 0 0 1).rf with shadow := sh } }

theorem witness_epoch_registers :
    (State.reset.reached 0 ∧ State.reset.epochOpen = false) ∧
    ((epoch .reset []).reached 0 ∧ (epoch .reset []).epochOpen = true ∧ (epoch .reset []).epochPending = false) ∧
    (State.reset.through 0 0x40 = true ∧ (State.reset.locAt 0 (0x40 / 8 * 8)).wide = false ∧
      State.reset.locAt 0 0x40 = .reg ⟨.bgSelftest, 0, 0⟩ false ∧ wrOf .bgSelftest = .rwe 0x3F) ∧
    (∃ (s : State) (c : Commit), s.cpRuns = true ∧ s.cp.commit = some c ∧ c.drain = true ∧ s.rnat .epochHold ≤ ticks c.begun s.now) :=
  ⟨⟨⟨rfl, by decide +kernel⟩, by decide +kernel⟩, ⟨⟨rfl, by decide +kernel⟩, by decide +kernel, by decide +kernel⟩,
   ⟨by decide +kernel, by decide +kernel, by decide +kernel, rfl⟩,
   ⟨{ State.reset.withCp fun c => { c with commit := some ⟨⟨1, 0⟩, 0, true, [0], [(0, 1)]⟩ } with now := 500000 }, _, by decide +kernel, rfl, rfl,
     by decide +kernel⟩⟩

theorem witness_epoch_commit :
    ((epoch (run 0xF0 0 [0]) []).begins 0xF0 1 0 (pk 0xF0 0 [0]) ∧ (epoch (run 0xF0 0 [0]) []).commitReason 0 = none ∧
      (epoch (run 0xF0 0 [0]) []).nonAtomicChange = false) ∧
    ((epoch (run 0xF0 0 [0]) [(⟨.memQuota, 0, 0⟩, 100)]).begins 0xF0 1 0 (pk 0xF0 0 [0]) ∧
      (epoch (run 0xF0 0 [0]) [(⟨.memQuota, 0, 0⟩, 100)]).commitReason 0 = none ∧
      (epoch (run 0xF0 0 [0]) [(⟨.memQuota, 0, 0⟩, 100)]).nonAtomicChange = true ∧
      (epoch (run 0xF0 0 [0]) [(⟨.memQuota, 0, 0⟩, 100)]).rnat .epochHold ≠ 0) :=
  ⟨⟨begins_of (by decide +kernel), by decide +kernel, by decide +kernel⟩,
   ⟨begins_of (by decide +kernel), by decide +kernel, by decide +kernel, by decide +kernel⟩⟩

/-- An epoch of two writes that is abandoned. -/
theorem witness_abandoned_epoch :
    ∃ (s : State) (ws : List (Nat × W64)) (rest : List Instr), s.reached 0 ∧ s.epochOpen = true ∧ s.epochPending = false ∧ ws.length = 2 ∧
      s.pending = (ws.map fun w => Instr.RWE_WRITE w.1 4 w.2) ++ .EPOCH_ABANDON :: rest :=
  ⟨{ epoch .reset [] with pending := [.RWE_WRITE 0x40 4 1, .RWE_WRITE 0x44 4 2, .EPOCH_ABANDON] }, [(0x40, 1), (0x44, 2)], [],
    ⟨rfl, by decide +kernel⟩, by decide +kernel, by decide +kernel, rfl, rfl⟩

theorem pair_of {α : Type} {r : α × Bool} (h : r.2 = true) : r = (r.1, true) := Prod.ext rfl h

theorem done_of {α β : Type} {r : α × Option β} (h : r.2.isNone = true) : r = (r.1, none) :=
  Prod.ext rfl (Option.isNone_iff_eq_none.mp h)

theorem ok_eq {ε α : Type} [DecidableEq α] {r : Except ε α} {a : α}
    (h : (match r with | .ok b => decide (b = a) | .error _ => false) = true) : r = .ok a := by
  cases r with
  | ok b => rw [of_decide_eq_true h]
  | error e => simp at h

/-- The number of the upper word of a device address at offset 0. -/
def dev : Nat := 0x80000000

/-- `mapped` with the first bytes of page 0 written. -/
def loaded (s : State) (bs : List W8) : State := (mapped s false).withMem fun m => { m with bytes := memPuts m.bytes 0 bs }

/-! ### Matrix work and layer records -/

/-- A product of 1 × 128 by 128 × 128 in one tile, from a model. -/
def mm : List Nat := [0, 0, 0, dev, 0, 0, 0x1000, dev, 1, 0x00800080, 0, 0, 0x00800001, 0]

theorem witness_matrix_model :
    ∃ (s t u : State) (x : Ctx) (prog : List W8) (m : Model) (n : Nat), n = (if x.a 12 = 0 then 0 else stackBytes (x.a 12) 64) ∧
      s.begins 0x20 1 0 x ∧ bit (x.w 2) 10 = false ∧ s.modelState x (fld (x.w 2) 0 10) = .ready m ∧ x.w 3 + weightBytes x = m.size ∧
      s.pay x n = (t, true) ∧ u = t.meetOp x.fn (x.a 12) (if x.a 12 = 0 then 0 else 64) ∧ u.gateProgram x [] = .ok prog :=
  let x := pk 0x20 0 mm
  let m : Model := { small with size := weightBytes x }
  let s := withModel (run 0x20 0 mm) m
  ⟨s, (s.pay x 0).1, _, x, _, m, 0, by decide +kernel, begins_of (by decide +kernel), by decide +kernel, rfl, by decide +kernel,
    pair_of (by decide +kernel), rfl, if_pos (by decide +kernel)⟩

theorem witness_matrix_memory :
    ∃ (s t u : State) (x : Ctx) (prog : List W8) (n : Nat), n = (if x.a 12 = 0 then 0 else stackBytes (x.a 12) 64) ∧
      s.begins 0x20 1 0 x ∧ bit (x.w 2) 10 = true ∧ s.pay x n = (t, true) ∧
      u = t.meetOp x.fn (x.a 12) (if x.a 12 = 0 then 0 else 64) ∧ u.gateProgram x [] = .ok prog :=
  let x := pk 0x20 0 (1024 :: mm.drop 1)
  let s := run 0x20 0 (1024 :: mm.drop 1)
  ⟨s, (s.pay x 0).1, _, x, _, 0, by decide +kernel, begins_of (by decide +kernel), by decide +kernel, pair_of (by decide +kernel), rfl,
    if_pos (by decide +kernel)⟩

theorem witness_gate_only :
    ∃ (s t u : State) (x : Ctx) (prog : List W8) (n : Nat), n = (if x.a 12 = 0 then 0 else stackBytes (x.a 12) 64) ∧
      s.begins 0x21 1 0 x ∧ s.pay x n = (t, true) ∧ u = t.meetOp x.fn (x.a 12) (if x.a 12 = 0 then 0 else 64) ∧ u.gateProgram x [] = .ok prog :=
  let x := pk 0x21 0 mm
  let s := run 0x21 0 mm
  ⟨s, (s.pay x 0).1, _, x, _, 0, by decide +kernel, begins_of (by decide +kernel), pair_of (by decide +kernel), rfl, if_pos (by decide +kernel)⟩

/-- An image with both scales 1.0. -/
def image1 : List W8 := [0, 0, 0x80, 0x3F, 0, 0, 0x80, 0x3F, 0, 0, 0, 0, 0, 0, 0, 0]

theorem witness_layer_set :
    ∃ (s t v : State) (x : Ctx), s.begins 0x22 1 0 x ∧ s.pay x (stackBytes (x.a 4) 16) = (t, true) ∧ v = t.meetOp x.fn (x.a 4) 16 ∧
      v.opRead x.fn [] (x.a 4) 16 = .ok image1 ∧ imageBad 0 image1 = none :=
  ⟨loaded (run 0x22 0 [0, 0, 0, dev]) image1, ((loaded (run 0x22 0 [0, 0, 0, dev]) image1).pay (pk 0x22 0 [0, 0, 0, dev]) 64).1, _,
    pk 0x22 0 [0, 0, 0, dev], begins_of (by decide +kernel), pair_of (by decide +kernel), rfl, ok_eq (by decide +kernel), by decide +kernel⟩

theorem witness_layer_read (sub : Nat) (h : sub = 0 ∨ sub = 1) :
    ∃ (s t u v : State) (x : Ctx) (r : MatCap), x.op = 0x23 ∧ x.sub = sub ∧ v = s.onDispatch x ∧ v.cap? x.id = some r ∧ v.begins 0x23 1 0 x ∧
      v.pay x (stackBytes (x.a 4) 64) = (t, true) ∧ t.opWrite x.fn (x.a 4) r.rec_.bytes = (u, none) := by
  rcases h with rfl | rfl
  · obtain ⟨r, hr⟩ : ∃ r, ((loaded (run 0x23 0 [0, 0, 0, dev]) []).onDispatch (pk 0x23 0 [0, 0, 0, dev])).cap? ⟨1, 0⟩ = some r :=
      some_of (by decide +kernel)
    have hp : (((((loaded (run 0x23 0 [0, 0, 0, dev]) []).onDispatch (pk 0x23 0 [0, 0, 0, dev])).pay (pk 0x23 0 [0, 0, 0, dev]) 64).1).opWrite 1
      ((pk 0x23 0 [0, 0, 0, dev]).a 4)
      ((((loaded (run 0x23 0 [0, 0, 0, dev]) []).onDispatch (pk 0x23 0 [0, 0, 0, dev])).cap? ⟨1, 0⟩).elim [] fun c => c.rec_.bytes)).2.isNone = true := by
      decide +kernel
    rw [hr] at hp
    exact ⟨_, _, _, _, pk 0x23 0 [0, 0, 0, dev], r, by decide +kernel, by decide +kernel, rfl, hr, begins_of (by decide +kernel),
      pair_of (by decide +kernel), done_of hp⟩
  · obtain ⟨r, hr⟩ : ∃ r, ((loaded (run 0x23 1 [0, 0, 0, dev]) []).onDispatch (pk 0x23 1 [0, 0, 0, dev])).cap? ⟨1, 0⟩ = some r :=
      some_of (by decide +kernel)
    have hp : (((((loaded (run 0x23 1 [0, 0, 0, dev]) []).onDispatch (pk 0x23 1 [0, 0, 0, dev])).pay (pk 0x23 1 [0, 0, 0, dev]) 64).1).opWrite 1
      ((pk 0x23 1 [0, 0, 0, dev]).a 4)
      ((((loaded (run 0x23 1 [0, 0, 0, dev]) []).onDispatch (pk 0x23 1 [0, 0, 0, dev])).cap? ⟨1, 0⟩).elim [] fun c => c.rec_.bytes)).2.isNone = true := by
      decide +kernel
    rw [hr] at hp
    exact ⟨_, _, _, _, pk 0x23 1 [0, 0, 0, dev], r, by decide +kernel, by decide +kernel, rfl, hr, begins_of (by decide +kernel),
      pair_of (by decide +kernel), done_of hp⟩

/-! ### Tables and sequences -/

/-- A table of one row of one FP32 element in tier T1. -/
def table1 : List W8 :=
  [1, 0, 6, 0, 0, 0, 0x80, 0x3F, 1, 0, 0, 0, 0, 0, 1, 0] ++ List.replicate 12 0 ++ [1, 0, 0, 0] ++ List.replicate 24 0 ++ [1] ++ List.replicate 7 0

/-- Every page of memory held but the first pages of channel 0, which are DIRTY. -/
def dirtyPool (s : State) : State := s.withMem fun m =>
  { m with
    pages := ⟨⟨.held, 0, none, none, none⟩, [(0, ⟨.held, 0, none, some (1, 0), none⟩), (1, ⟨.dirty, 0, none, none, none⟩),
      (2, ⟨.dirty, 0, none, none, none⟩)]⟩
    dirty := m.dirty.set 0 [1, 2] }

/-- The state in which TABLE_DEFINE finds its descriptor; the pages it takes are FREE, or wait for the zero engine. -/
theorem witness_table_define (b : Bool) :
    ∃ (s t u w : State) (x : Ctx) (ps : List Nat) (d : Desc) (n : Nat), s.begins 0x30 1 0 x ∧ s.pay x (stackBytes (x.a 4) 64) = (t, true) ∧
      u = t.meetOp x.fn (x.a 4) 64 ∧ u.opRead x.fn [] (x.a 4) 64 = .ok table1 ∧ ofBytes table1 &&& descReserved = 0 ∧
      (Desc.parse table1).group = 1 ∧ u.descOk (Desc.parse table1) (groupAddr table1) = true ∧ u.emb.tabs.get (x.ten, fld (x.w 2) 0 10) = none ∧
      d = { Desc.parse table1 with members := [0] } ∧ n = cdiv d.t1 512 + cdiv (16 * d.blocks) 2097152 + d.promo + d.repl ∧
      u.allocPages x.id (.dev x.ten) (x.part.getD 0) d.chans false n = .ok (w, ps) ∧
      ∀ f, decide ((w.withEmb f).claimsOf x.id = 0) = b := by
  let x := pk 0x30 0 [0, 0, 0, dev]
  let s := if b then loaded (run 0x30 0 [0, 0, 0, dev]) table1 else dirtyPool (loaded (run 0x30 0 [0, 0, 0, dev]) table1)
  let t := (s.pay x (stackBytes (x.a 4) 64)).1
  let u := t.meetOp x.fn (x.a 4) 64
  let d : Desc := { Desc.parse table1 with members := [0] }
  obtain ⟨r, hr⟩ : ∃ r, u.allocPages x.id (.dev x.ten) (x.part.getD 0) d.chans false 2 = .ok r := by
    cases b <;> exact ok_of (by decide +kernel)
  have hc : (match u.allocPages x.id (.dev x.ten) (x.part.getD 0) d.chans false 2 with
    | .ok r => decide (r.1.claimsOf x.id = 0) == b | .error _ => false) = true := by cases b <;> decide +kernel
  rw [hr] at hc
  refine ⟨s, t, u, r.1, x, r.2, d, 2, begins_of ?_, pair_of ?_, rfl, ok_eq ?_, by decide +kernel, by decide +kernel, ?_, ?_, rfl,
    by decide +kernel, hr, fun _ => eq_of_beq hc⟩ <;> cases b <;> decide +kernel

/-- The table of `table1`. -/
def shard1 : Shard := { d := { Desc.parse table1 with members := [0] }, home := [1], dirPages := [2], promo := [], repl := [] }

def withTable (s : State) (sh : Shard) : State := s.withEmb fun e => { e with tabs := e.tabs.set (0, 0) (some sh) }

theorem witness_table_retire :
    ((withTable (run 0x31 0 []) shard1).begins 0x31 1 0 (pk 0x31 0 []) ∧ (withTable (run 0x31 0 []) shard1).tableFor (pk 0x31 0 []) 0 = some shard1 ∧
      ((withTable (run 0x31 0 []) shard1).startRetire (pk 0x31 0 []) 0).tableBusy (pk 0x31 0 []) 0 = false ∧
      (pk 0x31 0 []).sub ≠ 1) ∧
    ∃ (s : State) (sh : Shard) (x : Ctx), s.begins 0x31 1 0 x ∧ s.tableFor x 0 = some sh ∧
      (s.startRetire x 0).tableBusy x 0 = false ∧ x.sub = 1 ∧ sh.dirtyBlocks ≠ [] :=
  ⟨⟨begins_of (by decide +kernel), by decide +kernel, by decide +kernel, by decide +kernel⟩,
   withTable (run 0x31 1 []) { shard1 with dir := shard1.dir.set 0 { dirty := true } }, { shard1 with dir := shard1.dir.set 0 { dirty := true } },
   pk 0x31 1 [], begins_of (by decide +kernel), by decide +kernel, by decide +kernel, by decide +kernel, by decide +kernel⟩

theorem witness_table_flush_stats :
    (withTable (run 0x35 0 []) shard1).begins 0x35 1 0 (pk 0x35 0 []) ∧
    (∃ (s t u : State) (x : Ctx), s.begins 0x36 1 0 x ∧ s.tableFor x 0 = some shard1 ∧ x.sub = 0 ∧
      s.pay x (stackBytes (x.a 4) (shard1.statBytes s.now).length) = (t, true) ∧ t.opWrite x.fn (x.a 4) (shard1.statBytes s.now) = (u, none)) ∧
    (∃ (s t u : State) (x : Ctx) (l : List W8), s.begins 0x36 1 0 x ∧ s.tableFor x 0 = some shard1 ∧ x.sub ≠ 0 ∧
      l = ((List.range 64).map fun i => toBytes 8 (shard1.lastChan.get i)).flatten ∧
      s.pay x (stackBytes (x.a 4) l.length) = (t, true) ∧ t.opWrite x.fn (x.a 4) l = (u, none)) :=
  ⟨begins_of (by decide +kernel),
   ⟨mapped (withTable (run 0x36 0 [0, 0, 0, dev]) shard1) false, _, _, pk 0x36 0 [0, 0, 0, dev], begins_of (by decide +kernel), by decide +kernel,
     by decide +kernel, pair_of (by decide +kernel), done_of (by decide +kernel)⟩,
   ⟨mapped (withTable (run 0x36 1 [0, 0, 0, dev]) shard1) false, _, _, pk 0x36 1 [0, 0, 0, dev], _, begins_of (by decide +kernel),
     by decide +kernel, by decide +kernel, rfl, pair_of (by decide +kernel), done_of (by decide +kernel)⟩⟩

/-- A sum of one bag of one index. -/
def gp : List Nat := [0x60400, 1, 0, dev, 0x1000, dev, 0, 0, 0, 0, 0, 0, 0x10001, 0]

theorem witness_gather :
    ∃ (s : State) (x : Ctx) (n : Nat), s.begins 0x32 1 0 x ∧ s.tableFor x (GatherOp.tab x) = some shard1 ∧
      s.gatherBad x shard1.d (s.inStep x) = none ∧ shard1.d.group = 1 ∧ 0 < GatherOp.bagLen x ∧ n = GatherOp.bags x * GatherOp.bagLen x ∧
      n ≤ 16777215 ∧ (GatherOp.pool x = 0 → GatherOp.bagLen x = 1) ∧
      s.check89 x.fn ([⟨4, addrAdd (x.a 4) 0, 8 * n⟩] ++ (if GatherOp.pool x = 4 then [⟨8, addrAdd (x.a 8) 0, 4 * n⟩] else [])) = none ∧
      ignoresLayer (GatherOp.ofmt x) = true :=
  ⟨mapped (withTable (run 0x32 0 gp) shard1) false, pk 0x32 0 gp, 1, begins_of (by decide +kernel), by decide +kernel, by decide +kernel,
    by decide +kernel, by decide +kernel, by decide +kernel, by decide +kernel, by decide +kernel, by decide +kernel, by decide +kernel⟩

theorem witness_row_update_and_load :
    (∃ (s t0 t : State) (x : Ctx), s.begins 0x33 1 0 x ∧ s.tableFor x (fld (x.w 2) 0 10) = some shard1 ∧ fld (x.w 3) 0 17 = 1 ∧
      s.check89 x.fn [⟨6, x.a 6, 1 * shard1.d.pitch⟩] = none ∧ s.pay x (stackBytes (x.a 4) 8) = (t0, true) ∧
      t = t0.meetOp x.fn (x.a 4) (8 * 1) ∧
      t.opRead x.fn [] (x.a 4) 8 = .ok (List.replicate 8 0) ∧
      ∀ r ∈ (List.range 1).map (fun i => natAt (List.replicate 8 (0 : W8)) (8 * i) 8), r < shard1.d.rows ∧
        (shard1.d.group = 1 ∨ shard1.d.ownerOf r = shard1.d.self)) ∧
    (∃ (s : State) (x : Ctx), s.begins 0x34 1 0 x ∧ s.tableFor x (fld (x.w 2) 0 10) = some shard1 ∧
      s.check89 x.fn [⟨4, x.a 4, x.w 3 * shard1.d.pitch⟩] = none ∧
      (x.a 6).toNat % 2 ^ 40 + x.w 3 ≤ shard1.d.localRows shard1.d.self) :=
  ⟨⟨mapped (withTable (run 0x33 0 [0, 1, 0, dev, 0x1000, dev]) shard1) false, _, _, pk 0x33 0 [0, 1, 0, dev, 0x1000, dev],
     begins_of (by decide +kernel), by decide +kernel, by decide +kernel, by decide +kernel, pair_of (by decide +kernel), rfl,
     ok_eq (by decide +kernel), by decide +kernel⟩,
   ⟨mapped (withTable (run 0x34 0 [0, 1, 0, dev, 0, 0]) shard1) false, pk 0x34 0 [0, 1, 0, dev, 0, 0], begins_of (by decide +kernel),
     by decide +kernel, by decide +kernel, by decide +kernel⟩⟩

/-- A family of one stream, without paging, in a pool of one page. -/
def fam1 : List W8 :=
  [1, 0, 1, 0, 1, 0, 0, 0] ++ List.replicate 8 0 ++ [1, 0] ++ List.replicate 14 0 ++ [1] ++ List.replicate 31 0

theorem witness_family_define (b : Bool) :
    ∃ (s t u w : State) (x : Ctx) (ps : List Nat) (d : FamDesc) (n : Nat), s.begins 0x40 1 0 x ∧
      s.pay x (stackBytes (x.a 4) 64) = (t, true) ∧ u = t.meetOp x.fn (x.a 4) 64 ∧
      u.opRead x.fn [] (x.a 4) 64 = .ok fam1 ∧ ofBytes fam1 &&& famReserved = 0 ∧ d = FamDesc.parse fam1 ∧ d.ok = true ∧
      u.seq.fams.get (x.ten, fld (x.w 2) 0 8) = none ∧ u.famStreams d ≤ 4194304 ∧ n = d.poolPages + cdiv (16 * d.streams) 2097152 ∧
      u.allocPages x.id (.dev x.ten) (x.part.getD 0) d.chans false n = .ok (w, ps) ∧
      ∀ f, decide ((w.withSeq f).claimsOf x.id = 0) = b := by
  let x := pk 0x40 0 [0, 0, 0, dev]
  let s := if b then loaded (run 0x40 0 [0, 0, 0, dev]) fam1 else dirtyPool (loaded (run 0x40 0 [0, 0, 0, dev]) fam1)
  let t := (s.pay x (stackBytes (x.a 4) 64)).1
  let u := t.meetOp x.fn (x.a 4) 64
  let d : FamDesc := FamDesc.parse fam1
  obtain ⟨r, hr⟩ : ∃ r, u.allocPages x.id (.dev x.ten) (x.part.getD 0) d.chans false 2 = .ok r := by
    cases b <;> exact ok_of (by decide +kernel)
  have hc : (match u.allocPages x.id (.dev x.ten) (x.part.getD 0) d.chans false 2 with
    | .ok r => decide (r.1.claimsOf x.id = 0) == b | .error _ => false) = true := by cases b <;> decide +kernel
  rw [hr] at hc
  refine ⟨s, t, u, r.1, x, r.2, d, 2, begins_of ?_, pair_of ?_, rfl, ok_eq ?_, by decide +kernel, rfl, by decide +kernel, ?_, ?_,
    by decide +kernel, hr, fun _ => eq_of_beq hc⟩ <;> cases b <;> decide +kernel

/-- The family of `fam1`. -/
def family1 : Fam := { d := FamDesc.parse fam1, pool := [1], dirPages := [2] }

def withFam (s : State) (m : Fam) : State := s.withSeq fun k => { k with fams := k.fams.set (0, 0) (some m) }

/-- A checked SEQ_TOUCH of one stream. -/
def touch1 : Touch := { id := ⟨1, 0⟩, ten := 0, fam := 0, list := [0], recs := [] }

theorem witness_sequences :
    (∃ (s : State) (x : Ctx) (m : Model), s.begins 0x41 1 0 x ∧ s.fam? x.ten (Chunk.famOf x) = some family1 ∧
      s.modelState x family1.d.handle = .ready m ∧ family1.d.offset + 16 * family1.d.h * family1.d.p + 4 * family1.d.h = m.size) ∧
    (∃ (s u : State) (x : Ctx), s.begins 0x42 1 0 x ∧ s.fam? x.ten 0 = some family1 ∧ s.touch? x.id = some touch1 ∧ touch1.fam = 0 ∧ x.a 6 = 0 ∧
      s.pay x 0 = (u, true) ∧ ∀ k ∈ touch1.list, (family1.slots.get k).st ≠ .out) ∧
    (∃ (s : State) (x : Ctx), s.begins 0x43 1 0 x ∧ s.fam? x.ten 0 = some family1 ∧ s.famBusy x 0 = false ∧ x.sub ≠ 1) ∧
    (∃ (s : State) (x : Ctx) (m : Fam), s.begins 0x43 1 0 x ∧ s.fam? x.ten 0 = some m ∧ s.famBusy x 0 = false ∧ x.sub = 1 ∧ m.d.base ≠ 0 ∧
      m.dirtySlots ≠ []) :=
  ⟨⟨withModel (withFam (run 0x41 0 [0, 0x10001]) family1) { small with size := 20 }, pk 0x41 0 [0, 0x10001], _, begins_of (by decide +kernel),
     by decide +kernel, rfl, by decide +kernel⟩,
   ⟨(withFam (run 0x42 0 [0, 1, 0, dev]) family1).withSeq fun k => { k with touches := [touch1] }, _, pk 0x42 0 [0, 1, 0, dev],
     begins_of (by decide +kernel), by decide +kernel, by decide +kernel, rfl, by decide +kernel, pair_of (by decide +kernel), by decide +kernel⟩,
   ⟨withFam (run 0x43 0 []) family1, pk 0x43 0 [], begins_of (by decide +kernel), by decide +kernel, by decide +kernel, by decide +kernel⟩,
   ⟨withFam (run 0x43 1 []) { family1 with d := { family1.d with base := 4096 }, slots := family1.slots.set 0 { st := .dirty } }, pk 0x43 1 [], _,
     begins_of (by decide +kernel), rfl, by decide +kernel, by decide +kernel, by decide +kernel, by decide +kernel⟩⟩

/-! ### Intake, Exchange, Quisto -/

theorem witness_intake :
    ∀ op ∈ [0x50, 0x51, 0x52, 0x53, 0x54, 0x55], (run op 0 []).begins op 1 0 (pk op 0 []) := by
  intro op h
  simp only [List.mem_cons, List.not_mem_nil, or_false] at h
  rcases h with rfl | rfl | rfl | rfl | rfl | rfl <;> exact begins_of (by decide +kernel)

/-- A transfer that has been silent since tick 0. -/
def silent : Xfer :=
  { xid := 7, sid := 0, fn := 1, part := some 0, q := 1, dev := 5, st := .live, link := none, txn := 0, fwd := false, secs := [], seg := []
    sent := 0, attempts := 1, resent := 0, got := .of none, block := [], blockNext := 0, ended := false, refused := [], cause := 0, lastRx := 0 }

theorem witness_exchange :
    ((run 0x60 0 []).withEmb fun e => { e with reqs := [⟨0, 5, 0, 0, 0⟩] }).begins 0x60 1 0 (pk 0x60 0 []) ∧
    ∃ s : State, s.xfer? 7 = some silent ∧ silent.st = .live ∧ s.exchTimeout = ticks silent.lastRx s.now :=
  ⟨begins_of (by decide +kernel),
   { State.reset.withLnk fun n => { n with xfers := [silent] } with now := 2000000 }, by decide +kernel, rfl, by decide +kernel⟩

/-- Function 1 with page 1 of its map sealed, the others not, and completed objects of one element in the sealed page: SHARES, SHARES, TRIPLES,
SCALAR, MASK_KEY; a byte 4 at device address 0x1000; two parameter slots. -/
def vault (s : State) : State :=
  let obj (l : Nat) (t : ObjType) : Nat × ObjHdr := (l, { type := t, attr := 0, count := 1, done := true, gen := 0 })
  let par (q : Nat) : QParam := { n := 1024, nlwe := 256, l := 1, bgLog := 1, ksL := 1, ksLog := 1, primes := [q], bytes := [] }
  (s.withMem fun m =>
    { m with
      maps := ⟨m.maps.dflt, (List.range 5).map fun i => ((1, i), ⟨true, i, i == 1, 0, false⟩)⟩
      bytes := memPuts m.bytes 0x1000 [4] }).withQst fun q =>
    { q with
      hdrs := [obj 32768 .shares, obj 32770 .shares, obj 32772 .triples, obj 32774 .scalar, obj 32776 .maskKey]
      params := ⟨none, [((0, 0), some (par 12289)), ((0, 1), some (par 40961))]⟩ }

/-- Operand words of one command of each Quisto opcode on `vault`. -/
def qops : List (Nat × List Nat) :=
  [(0x72, []), (0x73, [0, 1, 0, dev, 0x1000, dev, 0x8000, dev, 0x400000, dev, 0x800000, dev, 1, 0]),
   (0x74, [0x1000, 1, 0, dev, 0x10000, dev]), (0x75, [0, 1, 0x200000, dev, 0x200080, dev, 0, 0, 0x201000, dev]),
   (0x76, [0, 1, 0x200200, dev, 0, 0, 0x201000, dev]), (0x77, [0, 1, 0, dev, 0x200180, dev, 0x1000, dev]),
   (0x78, [0, 1, 0, dev, 0x1000, dev, 0x2000, dev]), (0x79, [0, 1, 0x201000, dev]), (0x7A, [0, 0, 0x200180, dev, 0, 0, 0x201000, dev]),
   (0x7B, [0, 0, 0x200000, dev, 0x200200, dev, 0, 0, 0x1000, dev]), (0x7C, [0, 1, 0, dev, 0x200200, dev, 0, 0, 0x201000, dev])]

theorem witness_quisto :
    ∀ e ∈ qops, (vault (run e.1 0 e.2)).begins e.1 1 0 (pk e.1 0 e.2) ∧ ∃ r, (vault (run e.1 0 e.2)).qCheck (pk e.1 0 e.2) = .ok r := by
  intro e h
  have hb : qops.all (fun e => starts (vault (run e.1 0 e.2)) e.1 (pk e.1 0 e.2) &&
      good ((vault (run e.1 0 e.2)).qCheck (pk e.1 0 e.2))) = true := by decide +kernel
  have := List.all_eq_true.mp hb e h
  rw [Bool.and_eq_true] at this
  exact ⟨begins_of this.1, ok_of this.2⟩

theorem pair_some {α β : Type} (p : α × β) : ∃ a b, p = (a, b) := ⟨p.1, p.2, rfl⟩

theorem witness_seal_and_key :
    (∃ (s : State) (x : Ctx) (t : State) (l : List Nat), s.begins 0x70 1 0 x ∧ s.qst.update = none ∧ s.entsTaken x.fn 0 1 = false ∧
      s.allocPages x.id (.map x.fn 0 true) (allocPart x) (x.a 4) (bit (x.w 2) 20) 1 = .ok (t, l)) ∧
    ((mapped (run 0x71 0 [1, 0]) true).begins 0x71 1 0 (pk 0x71 0 [1, 0]) ∧
      ∀ j < 1, ((mapped (run 0x71 0 [1, 0]) true).mem.maps.get (1, 0 + j)).valid = true ∧
        ((mapped (run 0x71 0 [1, 0]) true).mem.maps.get (1, 0 + j)).sealed = true) ∧
    (∃ s : State, s.begins 0x7E 1 0 (pk 0x7E 0 []) ∧ s.qst.update = none ∧ s.anySealed = false ∧ s.qst.fuse = 511 ∧ s.entFailed 0 = false ∧
      ∃ v t, s.drawMod (2 ^ 256) = (v, t)) ∧
    (∃ s : State, s.qst.update = some (⟨1, 0⟩, 0) ∧ s.qst.fuse = 0) := by
  refine ⟨?_, ⟨begins_of (by decide +kernel), by decide +kernel⟩,
    ⟨(run 0x7E 0 []).withQst fun q => { q with fuse := 511 }, begins_of (by decide +kernel), rfl, by decide +kernel, rfl, by decide +kernel,
      pair_some _⟩,
    ⟨State.reset.withQst fun q => { q with update := some (⟨1, 0⟩, 0) }, rfl, rfl⟩⟩
  let x := pk 0x70 0 [1, 0, 1, 0]
  let s := run 0x70 0 [1, 0, 1, 0]
  obtain ⟨r, h⟩ : ∃ r, s.allocPages x.id (.map x.fn 0 true) (allocPart x) (x.a 4) (bit (x.w 2) 20) 1 = .ok r := ok_of (by decide +kernel)
  exact ⟨s, x, r.1, r.2, begins_of (by decide +kernel), rfl, by decide +kernel, h⟩

/-! ### Queues, event rings, registers -/

/-- VF 1 is enabled. -/
def withVf (s : State) : State := s.withWin fun w => { w with vfEnable := true }

/-- Each row of Table 02.3: of a queue with 64 entries, tail 1 and done 0, at the values where the rows meet. -/
theorem witness_doorbell :
    (one (pk 0 0 [])).reached 0 ∧ (one (pk 0 0 [])).owner 1 = 0 ∧ ((one (pk 0 0 [])).queue 1).mode = .running ∧
    ((one (pk 0 0 [])).queue 1).entries = 64 ∧ ((one (pk 0 0 [])).queue 1).done = 0 ∧ ((one (pk 0 0 [])).queue 1).tail = 1 ∧
    (∃ v : W64, v.toNat / 2 ^ 32 ≠ 0) ∧
    ((withVf .reset).reached 1 ∧ ¬0 < ((withVf .reset).qRange 0).2) ∧ (State.reset.queue 1).mode ≠ .running ∧
    2 ^ 31 ≤ ((1 + 2 ^ 31 : W32) - 1).toNat ∧ ((2 ^ 31 : W32) - 1).toNat < 2 ^ 31 ∧ 64 < ((65 : W32) - 0).toNat ∧
    ((65 : W32) - 1).toNat < 2 ^ 31 ∧ ((64 : W32) - 0).toNat ≤ 64 :=
  ⟨⟨rfl, by decide +kernel⟩, by decide +kernel, by decide +kernel, by decide +kernel, by decide +kernel, by decide +kernel,
   ⟨0xFFFFFFFF00000000, by decide +kernel⟩, ⟨⟨rfl, by decide +kernel⟩, by decide +kernel⟩, by decide +kernel, by decide +kernel, by decide +kernel,
   by decide +kernel, by decide +kernel, by decide +kernel⟩

/-- The queue block of queue 1 as given. -/
def withQueue (Q : Queue) : State := State.reset.withCp fun c => { c with queues := c.queues.set 1 Q }

theorem witness_queue_controls :
    State.reset.reached 0 ∧ State.reset.runs 29 ∧ State.reset.reaches 0 1 = true ∧ State.reset.qResetting 1 = false ∧ State.reset.ownerBound 1 = true ∧
    ((State.reset.queue 1).mode = .disabled ∧
      (State.reset.updQueue 1 fun Q =>
        { Q with
          enable := true, mode := .running, cause := 0, head := 0, tail := 0, done := 0, reads := [], holds := [], openSid := none
          grant := 0 }).queueCheck 1 = none) ∧
    (((withQueue { log2 := 17 }).queue 1).mode = .disabled ∧
      ((withQueue { log2 := 17 }).updQueue 1 fun Q =>
        { Q with
          enable := true, mode := .running, cause := 0, head := 0, tail := 0, done := 0, reads := [], holds := [], openSid := none
          grant := 0 }).queueCheck 1 = some (3, 0)) ∧
    (((withQueue { enable := true, mode := .running }).queue 1).enable = true ∧
      ¬(((withQueue { enable := true, mode := .running }).queue 1).mode = .faulted ∧
        ((withQueue { enable := true, mode := .running }).queue 1).cause = 2)) ∧
    (((withQueue { mode := .faulted, cause := 1 }).queue 1).mode = .faulted ∧ ((withQueue { mode := .faulted, cause := 1 }).queue 1).cause = 1) ∧
    (((withQueue { mode := .faulted, cause := 3 }).queue 1).cause = 3 ∧ (withQueue { mode := .faulted, cause := 3 }).queueCheck 1 = none) :=
  ⟨⟨rfl, by decide +kernel⟩, by unfold State.runs; decide +kernel, by decide +kernel, by decide +kernel, by decide +kernel,
   ⟨by decide +kernel, by decide +kernel⟩, ⟨by decide +kernel, by decide +kernel⟩, ⟨by decide +kernel, by decide +kernel⟩,
   ⟨by decide +kernel, by decide +kernel⟩, ⟨by decide +kernel, by decide +kernel⟩⟩

/-- Tenant 0, bound to P0, takes queue 0 beside tenant 1's queue 1. -/
theorem witness_queue_range :
    ∃ (s : State) (v : W32), s.reached 0 ∧
      (∀ j < 64, j ≠ 0 → 0 < fld v.toNat 16 12 → 0 < (s.qRange j).2 →
        overlap (fld v.toNat 0 14) (fld v.toNat 16 12) (s.qRange j).1 (s.qRange j).2 = false) ∧
      (s.qRange 1).2 = 1 ∧ fld v.toNat 16 12 = 1 ∧ (∀ e ∈ s.cp.queues.ents, s.owner e.1 = vf 0 → e.2.mode = .disabled) ∧ s.tenPart 0 = some 0 ∧
      s.rfld .queues 0 14 0 ≤ fld v.toNat 0 14 ∧
      fld v.toNat 0 14 + fld v.toNat 16 12 ≤ s.rfld .queues 0 14 0 + s.rfld .queues 16 15 0 :=
  ⟨(State.reset.rput .queueRange 1 0 0x10001).rput .partition 0 0 0x80, 0x10000, ⟨rfl, by decide +kernel⟩, by decide +kernel, by decide +kernel,
    by decide +kernel, by decide +kernel, by decide +kernel, by decide +kernel, by decide +kernel⟩

theorem witness_event_ring :
    ((withVf .reset).reached 1 ∧ (withVf .reset).runs 29 ∧ (withVf .reset).rbit .evqCtrl 0 1 = false ∧ (withVf .reset).rfld .evqCtrl 8 5 1 = 6 ∧
      (withVf .reset).ringOk 1 (ringAddr ((withVf .reset).rget ⟨.evqBase, 1, 0⟩)) (32 * 2 ^ 6) = true) ∧
    (∃ s : State, s.reached 0 ∧ s.runs 29 ∧ s.rnat .evqTail 0 = 5 ∧ s.rnat .evqHead 0 = 3 ∧ (w32 5 - 3).toNat ≤ (w32 5 - w32 3).toNat ∧
      (w32 5 - 5).toNat ≤ (w32 5 - w32 3).toNat) :=
  ⟨⟨⟨rfl, by decide +kernel⟩, by unfold State.runs; decide +kernel, by decide +kernel, by decide +kernel, by decide +kernel⟩,
   (State.reset.rput .evqTail 0 0 5).rput .evqHead 0 0 3, ⟨rfl, by decide +kernel⟩, by unfold State.runs; decide +kernel, by decide +kernel, by decide +kernel, by decide +kernel,
   by decide +kernel⟩

theorem witness_registers :
    (State.reset.narrowAt 0 0x8 (.reg ⟨.epochHold, 0, 0⟩ false) ∧ wrOf .epochHold = .rw 0xFFFFFFFF ∧
      State.reset.vfShared ⟨.epochHold, 0, 0⟩ = false) ∧
    (State.reset.narrowAt 0 0 (.reg ⟨.epoch, 0, 0⟩ false) ∧ wrOf .epoch = .ro) ∧
    (State.reset.narrowAt 0 0x40 (.reg ⟨.bgSelftest, 0, 0⟩ false) ∧ wrOf .bgSelftest = .rwe 0x3F ∧ State.reset.epochOpen = false ∧
      (epoch .reset []).epochOpen = true ∧ (epoch .reset []).epochPending = false) ∧
    (wrOf .vecMod = .rw 0xFFFFFFFF ∧ State.reset.vfShared ⟨.vecMod, 1, 31⟩ = true ∧ State.reset.pfWrote? (.inl ⟨.vecMod, 1, 31⟩) = none ∧
      (State.reset.notePf (.inl ⟨.vecMod, 1, 31⟩) 7).pfWrote? (.inl ⟨.vecMod, 1, 31⟩) = some 7) ∧
    (State.reset.narrowAt 0 0x4 (.reg ⟨.epochCtrl, 0, 0⟩ false) ∧ wrOf .epochCtrl = .act) :=
  ⟨⟨by unfold State.narrowAt; decide +kernel, rfl, rfl⟩, ⟨by unfold State.narrowAt; decide +kernel, rfl⟩,
   ⟨by unfold State.narrowAt; decide +kernel, rfl, by decide +kernel, by decide +kernel, by decide +kernel⟩,
   ⟨rfl, by decide +kernel, by decide +kernel, by decide +kernel⟩, ⟨by unfold State.narrowAt; decide +kernel, rfl⟩⟩

/-- The 64-bit registers, of each kind of write; a queue's base address; queues of the PF and of a VF. -/
theorem witness_wide_registers :
    (State.reset.wideAt 0 0x100000 (.reg ⟨.evqBase, 0, 0⟩ true) ∧ State.reset.through 0 0x100004 = true ∧ wrOf .evqBase = .act) ∧
    (State.reset.wideAt 0 0x300020 (.reg ⟨.inflightRsv, 0, 0⟩ true) ∧ isRwe .inflightRsv = true ∧ (epoch .reset []).epochOpen = true ∧
      (epoch .reset []).epochPending = false) ∧
    (State.reset.wideAt 0 0x60 (.reg ⟨.bgBal, 0, 0⟩ true) ∧ wrOf .bgBal = .ro) ∧
    State.reset.wideAt 0 0x200000 (.queue 0 0) ∧ State.reset.owner 0 = 0 ∧ (State.reset.rput .queueRange 0 0 0x10001).owner 1 ≠ 0 ∧
    (State.reset.notePf (.inr (1, 16)) 1).pfWrote? (.inr (1, 16)) = some 1 :=
  ⟨⟨by unfold State.wideAt; decide +kernel, by decide +kernel, rfl⟩,
   ⟨by unfold State.wideAt; decide +kernel, rfl, by decide +kernel, by decide +kernel⟩, ⟨by unfold State.wideAt; decide +kernel, rfl⟩,
   by unfold State.wideAt; decide +kernel, by decide +kernel, by decide +kernel, by decide +kernel⟩

/-- The words of BAR0 that are no registers, and accesses that do not complete, or not normally. -/
theorem witness_other_words :
    (∃ o, State.reset.narrowAt 0 o .deviceReset) ∧ (∃ o p, State.reset.narrowAt 0 o (.schedCmd p)) ∧ (∃ o, State.reset.narrowAt 0 o .svn) ∧
    (∃ o f k n, State.reset.narrowAt 0 o (.msix f k n)) ∧ (∃ o q k, State.reset.narrowAt 0 o (.queue q k)) ∧
    (State.reset.cfgUp 0 = true ∧ (State.reset.cp.fns.get 0).msixMask = false ∧
      ((State.reset.updFn 0 fun f => { f with msixMask := true }).cp.fns.get 0).msixMask = true ∧ (withVf .reset).cfgUp 1 = true) ∧
    (∃ s : State, s.win.ready = false ∧ s.win.rrs = true ∧ s.rbit .windup 3 = false ∧ s.win.held = false ∧ s.runs 28) ∧
    ((State.reset.withWin fun w => { w with ready := false }).barUp 0 = false ∧ inSafe 0 0 = false ∧
      (State.reset.withWin fun w => { w with ready := false }).through 0 0 = true) ∧
    (State.reset.updIsl 28 fun i => { i with droop := some 0 }).through 0 0 = false :=
  ⟨⟨0x24, by unfold State.narrowAt; decide +kernel⟩, ⟨0x300048, 0, by unfold State.narrowAt; decide +kernel⟩,
   ⟨0x1730110, by unfold State.narrowAt; decide +kernel⟩, ⟨0x3FF0008, 0, 0, 2, by unfold State.narrowAt; decide +kernel⟩,
   ⟨0x200010, 0, 16, by unfold State.narrowAt; decide +kernel⟩,
   ⟨by decide +kernel, rfl, by decide +kernel, by decide +kernel⟩,
   ⟨State.reset.deviceReset false, by decide +kernel, by decide +kernel, by decide +kernel, by decide +kernel,
     by unfold State.runs; decide +kernel⟩,
   ⟨by decide +kernel, by decide +kernel, by decide +kernel⟩, by decide +kernel⟩

theorem witness_empty_offsets :
    (State.reset.through 0 0x30 = true ∧ (State.reset.locAt 0 (0x30 / 8 * 8)).wide = false ∧ State.reset.locAt 0 0x30 = .empty ∧
      State.reset.locAt 0 (0x30 + 4) = .empty) ∧ (3 ≠ 4 ∧ 3 ≠ 8) ∧ 2 % 4 ≠ 0 :=
  ⟨⟨by decide +kernel, by decide +kernel, by decide +kernel, by decide +kernel⟩, by decide +kernel, by decide +kernel⟩

theorem witness_upper_half : State.reset.wideAt 0 0x60 (.reg ⟨.bgBal, 0, 0⟩ true) ∧ State.reset.through 0 (0x60 + 4) = true :=
  ⟨by unfold State.wideAt; decide +kernel, by decide +kernel⟩

theorem witness_partition_controls :
    (∃ v : W32, ∀ b < 16, bit (v.toNat % 65536) b = decide (b = 15)) ∧ (State.reset.pstate 0 ≠ 0 ∧ State.reset.pstate 15 = 0) ∧
    (State.reset.rput .pstate 15 0 4).pstate 15 = 4 ∧ (State.reset.rput .pstate 15 0 4).setThis .partReset 15 0 = false ∧
    (((State.reset.rput .pstate 15 0 4).noteSet .partReset 15 0).pstate 15 = 4 ∧
      ((State.reset.rput .pstate 15 0 4).noteSet .partReset 15 0).setThis .partReset 15 0 = true) :=
  ⟨⟨0x8000, by decide +kernel⟩, ⟨by decide +kernel, by decide +kernel⟩, by decide +kernel, by decide +kernel, ⟨by decide +kernel, by decide +kernel⟩⟩

/-! ### Resets, Windup, management -/

theorem witness_resets :
    State.reset.reached 0 ∧ bit (2 : W32).toNat 0 = false ∧ (bit (1 : W32).toNat 0 = true ∧ bit (1 : W32).toNat 1 = false) ∧
    (bit (3 : W32).toNat 0 = true ∧ bit (3 : W32).toNat 1 = true) ∧ State.reset.win.mgmtUp = true ∧ State.reset.win.ready = true ∧
    State.reset.cp.halted = false ∧ State.reset.cool = true ∧ (State.reset.rput .islTemp 0 0 100).cool = false ∧
    ((State.reset.withWin fun w => { w with ready := false }).win.mgmtUp = true ∧ (State.reset.withWin fun w => { w with ready := false }).win.ready = false) ∧
    (State.reset.withWin fun w => { w with mgmtUp := false }).win.mgmtUp = false ∧
    (keepsReset .cap = true ∧ keepsReset .epochHold = false) :=
  ⟨⟨rfl, by decide +kernel⟩, by decide, by decide, by decide, rfl, rfl, rfl, by decide +kernel, by decide +kernel, ⟨rfl, rfl⟩, rfl, ⟨rfl, rfl⟩⟩

theorem witness_tap : State.reset.win.held = false ∧ (State.reset.withWin fun w => { w with held := true }).win.held = true := ⟨rfl, rfl⟩

/-- Windup stands in a stage. -/
def inWindup (k : Nat) : State := (State.reset.rput .windup 0 0 k).withWin fun w => { w with ready := false }

theorem witness_windup :
    (∀ k ∈ [1, 2, 3, 4, 5, 6, 7], (inWindup k).inStage k = true) ∧ ((inWindup 1).withQst Qst.fuseRead).qst.keyOk = true ∧
    (inWindup 7).win.failed = [] ∧ (∃ v s, (inWindup 6).free = (v, s)) :=
  ⟨by decide +kernel, by decide +kernel, rfl, pair_some _⟩

theorem witness_function_resets :
    State.reset.cfgUp 0 = true ∧ (withVf .reset).cfgUp 64 = true ∧ (withVf .reset).cfgUp 0 = true ∧ (withVf .reset).win.vfEnable = true ∧
    State.reset.win.vfEnable = false ∧ (∀ c p, State.reset.cp.commit = some c → State.reset.tenPart 0 = some p → (c.drain && c.affected.contains p) = false) ∧
    (∃ (s : State) (c : Commit) (p : Nat), s.cfgUp 1 = true ∧ s.cp.commit = some c ∧ s.tenPart 0 = some p ∧ c.drain = true ∧
      c.affected.contains p = true) ∧
    (∃ s : State, s.win.ready = false ∧ s.win.rrs = true ∧ s.rbit .windup 3 = false ∧ s.win.held = false ∧ s.runs 28) :=
  ⟨by decide +kernel, by decide +kernel, by decide +kernel, rfl, rfl, fun _ _ h => by simp [State.reset, Cp.reset] at h,
   ⟨((withVf .reset).rput .partition 0 0 0x80).withCp fun c => { c with commit := some ⟨⟨1, 0⟩, 0, true, [0], [(0, 1)]⟩ }, _, 0, by decide +kernel,
     rfl, by decide +kernel, rfl, by decide +kernel⟩,
   ⟨State.reset.deviceReset false, by decide +kernel, by decide +kernel, by decide +kernel, by decide +kernel,
     by unfold State.runs; decide +kernel⟩⟩

/-- After the reset of every VF the epoch is closed, open, or has a drain in progress. -/
theorem witness_pf_reset :
    (((List.range 64).foldl State.flrVf .reset).cp.commit = none ∧ ((List.range 64).foldl State.flrVf .reset).epochOpen = false) ∧
    (((List.range 64).foldl State.flrVf (epoch .reset [])).cp.commit = none ∧ ((List.range 64).foldl State.flrVf (epoch .reset [])).epochOpen = true) ∧
    ∃ c, ((List.range 64).foldl State.flrVf (State.reset.withCp fun c => { c with commit := some ⟨⟨1, 0⟩, 0, true, [0], [(0, 1)]⟩ })).cp.commit =
      some c :=
  ⟨⟨by decide +kernel, by decide +kernel⟩, ⟨by decide +kernel, by decide +kernel⟩, some_of (by decide +kernel)⟩

theorem witness_firmware :
    (∃ (s : State) (v : W32), s.reached 0 ∧ s.win.svnMin < v.toNat % 128 ∧ v.toNat % 128 = 64 ∧ v.toNat % 128 = s.rfld .bootStatus 8 16) ∧
    (State.reset.win.mgmtUp = true ∧ 8388608 - 1 + ([0] : List W8).length ≤ 8388608 ∧ (0 : Nat) = (if (0 : Nat) = 0 then 0 else State.reset.win.fwGot)) ∧
    (∃ s : State, s.win.mgmtUp = true ∧ s.win.fwLen ≠ 0 ∧ s.win.fwGot = s.win.fwLen) ∧ (∃ s : State, s.win.mgmtUp = true ∧ s.win.fwOk = true) :=
  ⟨⟨State.reset.rput .bootStatus 0 0 16384, 64, ⟨rfl, by decide +kernel⟩, by decide +kernel, by decide, by decide +kernel⟩,
   ⟨rfl, by decide, rfl⟩, ⟨State.reset.withWin fun w => { w with fwLen := 1, fwGot := 1 }, rfl, by decide +kernel, rfl⟩,
   ⟨State.reset.withWin fun w => { w with fwOk := true }, rfl, rfl⟩⟩

theorem witness_management : State.reset.win.mgmtUp = true ∧ State.reset.sensor 1 = some 0 ∧ (inWindup 4).win.ready = false ∧
    (inWindup 4).win.mgmtUp = true ∧ State.reset.win.ready = true := ⟨rfl, by decide +kernel, rfl, rfl, rfl⟩

/-! ### Links -/

/-- Link 15 in a state, and its two directions as given. -/
def onLink (st : Nat) (k : Link) : State :=
  (State.reset.rput .lnkStatus 15 0 st).withLnk fun n => { n with links := n.links.set 15 k }

theorem witness_links :
    ((State.reset.rput .lnkCtrl 15 0 0).reached 0 ∧ (State.reset.rput .lnkCtrl 15 0 0).rbit .lnkCtrl 0 15 = false) ∧
    State.reset.rbit .lnkCtrl 0 15 = true ∧ (∀ k < 16, State.reset.txnsUsed k = []) ∧ (∀ k < 16, State.reset.linkState k ≠ 3) ∧
    ((onLink 2 {}).runs (24 + 15 / 4) ∧ (onLink 2 {}).linkState 15 = 2 ∧ 8 / 16 % 16 = 0 ∧
      trainWidth 8 ((onLink 2 {}).rbit .lnkCtrl 2 15) = some (1, 3)) ∧
    (((onLink 2 {}).rput .lnkCtrl 15 0 1).linkState 15 = 2 ∧ 7 / 16 % 16 = 0 ∧
      trainWidth 7 (((onLink 2 {}).rput .lnkCtrl 15 0 1).rbit .lnkCtrl 2 15) = none) ∧
    16 / 16 % 16 ≠ 0 ∧
    ((onLink 1 {}).linkState 15 = 1 ∧ (onLink 1 {}).rbit .lnkCtrl 0 15 = true ∧ 100000000 ≤ ticks ((onLink 1 {}).link 15).trainAt 100000000) ∧
    ((onLink 3 { nakCnt := 8 }).linkState 15 = 3 ∧
      max 1 ((onLink 3 { nakCnt := 8 }).rfld .lnkCtrl 8 4 15) = ((onLink 3 { nakCnt := 8 }).link 15).nakCnt) ∧
    1000 ≤ ticks ((onLink 3 {}).link 15).lastCtl 1000 :=
  ⟨⟨⟨rfl, by decide +kernel⟩, by decide +kernel⟩, by decide +kernel, by decide +kernel, by decide +kernel,
   ⟨by unfold State.runs; decide +kernel, by decide +kernel, by decide, by decide +kernel⟩,
   ⟨by decide +kernel, by decide, by decide +kernel⟩, by decide,
   ⟨by decide +kernel, by decide +kernel, by decide +kernel⟩, ⟨by decide +kernel, by decide +kernel⟩, by decide +kernel⟩

/-- A flit of VC 0. -/
def flit0 : Flit := ⟨0, true, false, 0, 1, 2, 0, 0, []⟩

theorem witness_flits_sent :
    ((onLink 3 { resend := [flit0] }).link 15).resend ≠ [] ∧
    (((onLink 3 { forward := [(0, flit0)] }).link 15).resend = [] ∧
      (((onLink 3 { forward := [(0, flit0)] }).link 15).forward.find? fun e => decide (0 < (onLink 3 { forward := [(0, flit0)] }).room 15 e.2.cls))
        = some (0, flit0)) ∧
    (2 ^ (onLink 11 {}).rfld .eqCtrl 4 4 15 ≤ ((onLink 11 { eqCnt := 8 }).link 15).eqCnt ∧ (onLink 11 {}).rfld .lnkStatus 3 4 15 = 1) :=
  ⟨by decide +kernel, ⟨by decide +kernel, by decide +kernel⟩, ⟨by decide +kernel, by decide +kernel⟩⟩

/-! ### NVMe, MSI-X, host link -/

/-- The PF's first 36 map entries hold pages 0 to 35, and the area is enabled there. -/
def withArea (cfg : Nat) (bs : List W8) (far : List FarOp) : State :=
  ((((State.reset.rput .nvmeCtrl 0 0 0x10000).rput .nvmeBar 0 0 0x1000).rput .nvmeCfg 0 0 cfg).withMem fun m =>
    { m with
      maps := ⟨m.maps.dflt, (List.range 36).map fun i => ((0, i), ⟨true, i, false, 0, false⟩)⟩
      bytes := memPuts m.bytes (33554432 + 12) bs }).withEmb fun e => { e with far := far }

/-- A write of block 0 to drive 0 on queue pair 1. -/
def farWrite : FarOp :=
  { k := 0, kind := .write, part := some 0, ten := 0, tab := 0, blk := 0, drive := 0, qp := some 1, tries := 1, issued := 0, outstanding := true
    data := [], atts := [], commits := 0, load := none, job := none }

theorem witness_nvme :
    ((withArea 0 [] []).areaOk 0 true = true ∧ fld (0x10000 : W32).toNat 0 15 = 0 ∧ bit (0x10000 : W32).toNat 16 = true) ∧
    State.reset.areaOk 0 true = false ∧
    (∃ (s : State) (w : W64) (new : Nat), s.reached 0 ∧ bit (s.rnat .nvmeCfg 0) 0 = false ∧ bit w.toNat 0 = true ∧ s.rbit .nvmeCtrl 16 = true ∧
      fld w.toNat 2 7 = 64 ∧ 1 ≤ fld w.toNat 9 10 ∧ s.rnat .nvmeBar 0 ≠ 0 ∧ new = setFld (w.toNat &&& 0xFFFF007FFFFE) 0 1 0 ∧
      (s.rput .nvmeCfg 0 0 new).rbit .nvmeCtrl 16 = true) ∧
    ((withArea (5 * 2 ^ 32 + 1) [] []).driveRid 5 = true ∧ (withArea (5 * 2 ^ 32 + 1) [] []).withinArea (36 * 2097152 - 4) 4 = true ∧
      (withArea (5 * 2 ^ 32 + 1) [] []).withinArea (36 * 2097152 - 3) 4 = false) :=
  ⟨⟨by decide +kernel, by decide, by decide⟩, by decide +kernel,
   ⟨withArea 0 [] [], 1 + 4 * 64 + 512, setFld ((1 + 4 * 64 + 512 : W64).toNat &&& 0xFFFF007FFFFE) 0 1 0, ⟨rfl, by decide +kernel⟩, by decide +kernel,
     by decide, by decide +kernel, by decide, by decide, by decide +kernel, rfl, by decide +kernel⟩,
   ⟨by decide +kernel, by decide +kernel, by decide +kernel⟩⟩

theorem witness_nvme_completion :
    ∃ (s : State) (e : List W8) (q : NvQ) (n : Nat) (o : FarOp), s.runs 28 ∧ s.mem.errs = [] ∧ s.rbit .nvmeCtrl 16 = true ∧
      s.rbit .nvmeCfg 0 0 = true ∧ 1 ≤ s.qpairs 0 ∧ q = s.emb.nvq.get (0, 1) ∧ n = (q.head + 1) % s.qdepth 0 ∧
      s.devRead 0 (s.areaAddr (33554432 + 16384 * (0 * 64 + 1 - 1) + 16 * q.head)) 16 = .ok e ∧ fld (natAt e 12 4) 16 1 = q.phase ∧
      fld (natAt e 12 4) 17 15 = 0 ∧ q.late.contains (fld (natAt e 12 4) 0 16) = false ∧
      ((((s.withEmb fun m =>
        { m with nvq := m.nvq.upd (0, 1) fun v => { v with head := n, phase := if n = 0 then 1 - v.phase else v.phase } }).nvBell 0 1 1 n).emb.far.find?
          fun o => o.k = fld (natAt e 12 4) 0 16 ∧ o.outstanding ∧ o.drive = 0 ∧ o.qp = some 1)) = some o ∧ o.kind ≠ .read :=
  ⟨withArea (1 + 4 + 512) [0, 0, 1, 0] [farWrite], List.replicate 14 0 ++ [1, 0], {}, 1, farWrite, by unfold State.runs; decide +kernel, rfl,
    by decide +kernel, by decide +kernel, by decide +kernel, by decide +kernel, by decide +kernel, ok_eq (by decide +kernel), by decide +kernel,
    by decide +kernel, rfl, by decide +kernel, by decide⟩

/-- Vector 63 of the PF with a cause that waits. -/
def withVec (pend : Nat) : State :=
  State.reset.withCp fun c => { c with
    fns := c.fns.set 0 ⟨true, true, false, 0, false⟩, vecs := c.vecs.set (0, 63) ⟨0x1000, 0, false, pend, true, 0, none, false, none⟩ }

theorem witness_vector :
    ((withVec 1).win.ready = true ∧ (withVec 1).runs 28 ∧ (withVec 1).vecOpen 0 63 = true ∧ (withVec 1).vecDue 0 63 = true) ∧
    (withVec 0).vecDue 0 63 = false ∧ State.reset.vecOpen 0 63 = false ∧
    ((withVec 1).updVec 0 63 fun x => { x with unmasked := decide (0 < x.pend) }).vecDue 0 63 = true :=
  ⟨⟨rfl, by unfold State.runs; decide +kernel, by decide +kernel, by decide +kernel⟩, by decide +kernel, by decide +kernel, by decide +kernel⟩

/-! ### Fetch and dispatch, time -/

/-- A PF queue with 63 packets in flight and one to read. -/
def fetching : State := withQueue { mode := .running, enable := true, tail := 64, head := 63, ringBase := 0x10000 }

theorem witness_fetch_turn :
    fetching.cpRuns = true ∧ fetching.cp.halted = false ∧ fetching.readsOut < 256 ∧
    (∃ g, nextAfter fetching.cp.rotGroup (((fetching.cp.queues.ents.map (·.1)).filter fetching.eligible).map fetching.fetchGroup) = some g ∧
      nextAfter (fetching.cp.rotQueue.get g)
        (((fetching.cp.queues.ents.map (·.1)).filter fetching.eligible).filter fun q => fetching.fetchGroup q = g) = some 1) :=
  ⟨by decide +kernel, rfl, by decide +kernel, 0, by decide +kernel, by decide +kernel⟩

theorem witness_read_return :
    ∃ (s : State) (r : RingRead) (h : HostData), s.cpRuns = true ∧ s.cp.halted = false ∧ (s.queue 1).reads = [r] ∧
      isDev ((s.queue 1).slotAddr r.first) = false ∧
      s.opRead (s.owner 1) h ((s.queue 1).slotAddr r.first) (64 * r.n) = .ok (List.replicate 64 0) :=
  ⟨(withQueue { mode := .running, enable := true, tail := 1, ringBase := 0x10000, reads := [⟨0, 1, 0⟩] }).withCp fun c =>
      { c with fns := c.fns.set 0 ⟨true, false, false, 0, false⟩ },
    ⟨0, 1, 0⟩, [⟨0x10000, List.replicate 64 0⟩], by decide +kernel, rfl, rfl, by decide +kernel, ok_eq (by decide +kernel)⟩

/-- The packet at count 1 of queue 1, fetched, of an opcode; a failed command of its step at count 0 has STEP_ABORT refuse it, or not. -/
def waitingOp (op : Nat) (ws : List Nat) (f : Option W32) : State × Ctx :=
  let x : Ctx := { pk op 0 ws with id := ⟨1, 1⟩, phase := .fetched }
  ((one x).withCp fun c => { c with steps := c.steps.set 0 (some { Step.fresh x false with abortFrom := f }) }, x)

/-- The next command of queue 1 has what R47 asks for before its dispatch. -/
def mayGo (s : State) (x : Ctx) : Bool :=
  s.cpRuns && decide (s.nextFetched 1 = some x) && !fenceAhead (earlier (s.qCtxs 1) x) && !beginAhead (earlier (s.qCtxs 1) x) &&
    waitsMet x (earlier (s.qCtxs 1) x)

theorem witness_dispatch (f : Option W32) (hf : f = none ∨ f = some 0) :
    (waitingOp 0 [] f).1.cpRuns = true ∧ mayGo (waitingOp 0 [] f).1 (waitingOp 0 [] f).2 = true ∧
      (waitingOp 0 [] f).1.abortedFor (waitingOp 0 [] f).2 = f.isSome ∧ (waitingOp 0 [] f).2.op ∉ [0x20, 0x21, 0x23, 0x41, 0x42] := by
  rcases hf with rfl | rfl <;> exact ⟨by decide +kernel, by decide +kernel, by decide +kernel, by decide +kernel⟩

/-- Commands that take something at their dispatch: a checked SEQ_TOUCH and SEQ_CHUNK, LAYER_READ, MATMUL and GATE_ONLY. -/
theorem witness_dispatch_takes :
    (∃ (s : State) (x : Ctx), mayGo s x = true ∧ s.abortedFor x = false ∧ x.op = 0x42 ∧ (s.touch? x.id).isSome = true) ∧
    (∃ (s : State) (x : Ctx), mayGo s x = true ∧ s.abortedFor x = false ∧ x.op = 0x41 ∧ s.seqReady x.id = true) ∧
    (∃ (s : State) (x : Ctx), mayGo s x = true ∧ s.abortedFor x = false ∧ x.op = 0x23) ∧
    (∀ op, op = 0x20 ∨ op = 0x21 → ∃ (s t : State) (x : Ctx), mayGo s x = true ∧ s.abortedFor x = false ∧ x.op = op ∧
      (s.updCtx x.id fun y => { y with phase := .dispatched, begunAt := s.now }).matCapture x = .ok t) := by
  refine ⟨⟨(waitingOp 0x42 [] none).1.withSeq fun k => { k with touches := [{ touch1 with id := ⟨1, 1⟩ }] }, (waitingOp 0x42 [] none).2,
      by decide +kernel, by decide +kernel, by decide +kernel, by decide +kernel⟩,
    ⟨(withFam (waitingOp 0x41 [] none).1 { family1 with slots := family1.slots.set 0 { st := .clean, entry := some 0, claims := [⟨1, 1⟩] } }).withSeq
        fun k => { k with chunks := [⟨⟨1, 1⟩, 0, 0, some 0, [(⟨0, 0, 1, false⟩, .open_)], true, 0⟩] }, (waitingOp 0x41 [] none).2,
      by decide +kernel, by decide +kernel, by decide +kernel, by decide +kernel⟩,
    ⟨(waitingOp 0x23 [] none).1, (waitingOp 0x23 [] none).2, by decide +kernel, by decide +kernel, by decide +kernel⟩, fun op h => ?_⟩
  have : ∀ op ∈ [0x20, 0x21], good (((waitingOp op mm none).1.updCtx ⟨1, 1⟩ fun y =>
      { y with phase := .dispatched, begunAt := (waitingOp op mm none).1.now }).matCapture (waitingOp op mm none).2) = true := by decide +kernel
  obtain ⟨t, ht⟩ := ok_of (this op (by simp [h]))
  refine ⟨(waitingOp op mm none).1, t, (waitingOp op mm none).2, ?_, ?_, ?_, ht⟩ <;> rcases h with rfl | rfl <;> decide +kernel

theorem witness_backpressure :
    ∃ (s : State) (hd : Hold), s.cpRuns = true ∧ s.queuePart 1 = some 0 ∧ ((s.queue 1).holds.find? fun h => h.cause = 1) = some hd ∧
      hd.raised = false ∧ s.rnat .bpThresh 0 1 ≠ 0 ∧ s.rnat .bpThresh 0 1 = ticks hd.since s.now :=
  ⟨{ withQueue { mode := .running, holds := [⟨1, 0, false⟩] } with now := 100000 }, ⟨1, 0, false⟩, by decide +kernel, by decide +kernel,
    by decide +kernel, rfl, by decide +kernel, by decide +kernel⟩

theorem witness_time :
    ((State.reset.elapse (State.reset.ticksTo 100000)).periods = true ∧ (State.reset.elapse (State.reset.ticksTo 100000)).now.toNat % 100000 = 0 ∧
      State.reset.periods = true) ∧
    (((inWindup 4).elapse ((inWindup 4).ticksTo 100000)).periods = false ∧
      ((inWindup 4).elapse ((inWindup 4).ticksTo 100000)).now.toNat % 100000 = 0 ∧ (inWindup 4).periods = false) ∧
    tempsOk [] = true ∧ readsOk [] = true ∧
    (State.reset.withEmb fun e => { e with decay := e.decay.set 15 16 }).emb.decay.get 15 = 2 ^ (State.reset.rfld .rcAdmit 29 3 15 + 1) :=
  ⟨⟨by decide +kernel, by decide +kernel, rfl⟩, ⟨by decide +kernel, by decide +kernel, rfl⟩, rfl, rfl, by decide +kernel⟩

/-! ### Flits received -/

/-- A value as a numeral before it goes on, so that the kernel keeps no long chain of operations. -/
def force {w : Nat} {α : Type} (b : BitVec w) (k : BitVec w → α) : α :=
  Nat.rec (motive := fun _ => α) (k 0) (fun m _ => k (BitVec.ofNat w (m + 1))) b.toNat

theorem force_eq {w : Nat} {α : Type} (b : BitVec w) (k : BitVec w → α) : force b k = k b := by
  unfold force
  cases h : b.toNat with
  | zero =>
    have : b = 0 := BitVec.eq_of_toNat_eq (by simpa using h)
    subst this
    rfl
  | succ m =>
    have : b = BitVec.ofNat w (m + 1) := by rw [← h, BitVec.ofNat_toNat, BitVec.setWidth_eq]
    simp only [← this]

/-- A fold that evaluates as it goes. -/
def sfold {w : Nat} {β : Type} (f : BitVec w → β → BitVec w) : List β → BitVec w → BitVec w
  | [], a => a
  | x :: l, a => force (f a x) (sfold f l)

theorem sfold_eq {w : Nat} {β : Type} (f : BitVec w → β → BitVec w) (l : List β) (a : BitVec w) : l.foldl f a = sfold f l a := by
  induction l generalizing a with
  | nil => rfl
  | cons x l ih => rw [List.foldl_cons, ih, sfold, force_eq]

/-- CRC and syndromes, evaluated so. -/
def crcOf (l : List W8) : W64 := sfold crcByte l 0xFFFFFFFFFFFFFFFF ^^^ 0xFFFFFFFFFFFFFFFF
def clean (w : List W8) : Bool := (List.range 20).all fun i => force (gfPow i) fun x => sfold (fun a c => gfMul a x ^^^ c) w 0 == 0

theorem clean_code {w : List W8} (h : clean w = true) : rsCorrect w = some (w, []) := by
  have : (rsSyndromes w).all (· == 0) = true := by
    simpa [rsSyndromes, clean, gfEval, sfold_eq, force_eq, List.all_map] using h
  unfold rsCorrect
  rw [if_pos this]

/-- The two codewords of a flit. -/
def code0 (f : List W8) : List W8 := everyOther 140 (sliceB f 0 320) ++ ((sliceB f 0 320).drop 280).take 20
def code1 (f : List W8) : List W8 := everyOther 140 ((sliceB f 0 320).drop 1) ++ ((sliceB f 0 320).drop 300).take 20
def dataOf (f : List W8) : List W8 := interleave ((code0 f).take 140) ((code1 f).take 140)

theorem open_clean {f : List W8} (h0 : clean (code0 f) = true) (h1 : clean (code1 f) = true) :
    openFlit f = (if natAt (dataOf f) 272 8 = (crcOf ((dataOf f).take 272)).toNat then some ((dataOf f).take 272) else none, []) := by
  have e : ∀ l, crc64 l = crcOf l := fun l => by rw [crc64, sfold_eq, crcOf]
  have a0 : rsCorrect (everyOther 140 (sliceB f 0 320) ++ ((sliceB f 0 320).drop 280).take 20) = some (code0 f, []) := clean_code h0
  have a1 : rsCorrect (everyOther 140 ((sliceB f 0 320).drop 1) ++ ((sliceB f 0 320).drop 300).take 20) = some (code1 f, []) := clean_code h1
  simp only [openFlit, a0, a1, e, List.map_nil, List.append_nil, dataOf]
  congr

/-- Flits of a header byte and zeros, with the CRC and the parities that belong to them. -/
def dataFlit : List W8 :=
  1 :: List.replicate 271 0 ++
  [187, 157, 107, 184, 190, 42, 50, 143, 217, 67, 1, 67, 44, 173, 154, 35, 31, 180, 145, 156, 144, 241, 129, 18, 90, 17, 132, 38, 220, 235, 115, 121,
   84, 227, 79, 153, 85, 250, 151, 236, 15, 224, 78, 220, 233, 36, 108, 212]
def controlFlit : List W8 :=
  2 :: List.replicate 271 0 ++
  [209, 81, 80, 21, 91, 81, 226, 70, 219, 78, 151, 84, 150, 187, 133, 138, 236, 128, 67, 153, 17, 75, 135, 214, 19, 164, 166, 226, 51, 213, 66, 24,
   51, 114, 174, 57, 50, 176, 190, 31, 60, 218, 76, 104, 217, 253, 129, 125]

theorem open_data : openFlit dataFlit = (some (1 :: List.replicate 271 0), []) := by
  rw [open_clean (by decide +kernel) (by decide +kernel), if_pos (by decide +kernel)]
  exact congrArg (fun b => (some b, [])) (by decide +kernel)

theorem open_control : openFlit controlFlit = (some (2 :: List.replicate 271 0), []) := by
  rw [open_clean (by decide +kernel) (by decide +kernel), if_pos (by decide +kernel)]
  exact congrArg (fun b => (some b, [])) (by decide +kernel)

theorem open_bad : openFlit (List.replicate 320 0) = (none, []) := by
  rw [open_clean (by decide +kernel) (by decide +kernel), if_neg (by decide +kernel)]

theorem witness_flits_received :
    ((onLink 3 {}).runs (24 + 15 / 4) ∧ (onLink 3 {}).linkState 15 = 3) ∧
    (openFlit dataFlit = (some (1 :: List.replicate 271 0), []) ∧ rxKind (1 :: List.replicate 271 0) = 1 ∧
      (rxFlit (1 :: List.replicate 271 0)).seq =
        ((((onLink 3 {}).countFec 15 []).rxAcked 15 (rxAck (1 :: List.replicate 271 0))).link 15).rxSeq) ∧
    (openFlit controlFlit = (some (2 :: List.replicate 271 0), []) ∧ rxKind (2 :: List.replicate 271 0) = 2) ∧
    openFlit (List.replicate 320 0) = (none, []) :=
  ⟨⟨by unfold State.runs; decide +kernel, by decide +kernel⟩, ⟨open_data, by decide +kernel, by decide +kernel⟩,
   ⟨open_control, by decide +kernel⟩, open_bad⟩

/-! ### Arrays and engines -/

/-- Array 63 as given. -/
def onArray (s : State) (a : Arr) : State := s.withEn fun e => { e with arrs := e.arrs.set 63 a }

/-- A matrix command with one tile, running. -/
def tiled : Ctx := { pk 0x20 0 mm with phase := .running, work := .tiles 1 0 [] false }

/-- A tile or slice in flight. -/
def flying (job : ArrJob) (ran : Nat) (ready : Bool) : Flight :=
  { job := job, start := 0, charge := ⟨some 0, some 0, false, 2000, 0⟩, ran := ran, ready := ready }

theorem witness_array_test (b : Bool) :
    ∃ s : State, (s.arr 63).fly = none ∧ s.fenced 63 = false ∧ s.cp.halted = false ∧ s.rfld .islStatus 0 12 (63 / 4) ≠ 0 ∧ s.en.due = [] ∧
      (s.arr 63).claim = b ∧ (s.arr 63).again = !b ∧ s.mayTest 63 = true ∧ s.pass [.bg 0] (s.reserveNs (63 / 4)) = true := by
  cases b
  · exact ⟨onArray .reset ⟨none, false, true, none, none, []⟩, rfl, by decide +kernel, rfl, by decide +kernel, rfl, rfl, rfl, by decide +kernel,
      by decide +kernel⟩
  · exact ⟨onArray .reset ⟨none, true, false, none, none, []⟩, rfl, by decide +kernel, rfl, by decide +kernel, rfl, rfl, rfl, by decide +kernel,
      by decide +kernel⟩

theorem witness_array_tile :
    ∃ (s s1 : State) (x y : Ctx) (o : Nat), (s.arr 63).fly = none ∧ s.fenced 63 = false ∧ s.cp.halted = false ∧
      s.rfld .islStatus 0 12 (63 / 4) ≠ 0 ∧ s.en.due = [] ∧ s.mayTest 63 = true ∧ (s.arr 63).claim = false ∧ (s.arr 63).again = false ∧
      s.roundClaim 63 = (false, s1) ∧ s1.cellPart (63 / 4) = some 0 ∧ (∀ c ∈ s1.tileCands 0, s1.admits 0 (63 / 4) c.1 = true) ∧
      s1.chooseTile 0 (s1.arr 63).lastSid (s1.tileCands 0) = some (x, o) ∧
      ((s1.preemptFor 63 x.sid).updCtx x.id (fun y => match y.work with
        | .tiles n _ f w => { y with work := .tiles n (o + 1) f w }
        | _ => y)).ctx? x.id = some y :=
  let s := (one tiled).withEn fun e => { e with roundDone := [63] }
  ⟨s, s, tiled, { tiled with work := .tiles 1 1 [] false }, 0, rfl, by decide +kernel, rfl, by decide +kernel, rfl, by decide +kernel, rfl, rfl,
    if_pos (by decide +kernel), by decide +kernel, by decide +kernel, by decide +kernel, by decide +kernel⟩

/-- Array 62 tests itself, so array 63 of its cell goes on to the tile. -/
theorem witness_array_tile_beside_test :
    ∃ (s : State) (x y : Ctx) (o : Nat), (s.arr 63).fly = none ∧ s.mayTest 63 = false ∧ s.cellPart (63 / 4) = some 0 ∧
      (∀ c ∈ s.tileCands 0, s.admits 0 (63 / 4) c.1 = true) ∧ s.chooseTile 0 (s.arr 63).lastSid (s.tileCands 0) = some (x, o) ∧
      ((s.preemptFor 63 x.sid).updCtx x.id (fun y => match y.work with
        | .tiles n _ f w => { y with work := .tiles n (o + 1) f w }
        | _ => y)).ctx? x.id = some y :=
  let s := (one tiled).withEn fun e => { e with arrs := e.arrs.set 62 ⟨some (flying .selftest 0 true), true, false, none, none, []⟩ }
  ⟨s, tiled, { tiled with work := .tiles 1 1 [] false }, 0, rfl, by decide +kernel, by decide +kernel, by decide +kernel, by decide +kernel,
    by decide +kernel⟩

/-- The one FP32 element of a GATE_ONLY that copies it to device address 0x1000. -/
def gated : Ctx :=
  { pk 0x21 0 [0x606000, 0, 0, dev, 0, 0, 0x1000, dev, 1, 0x10000, 0, 0, 0x10001, 0] with phase := .running, work := .tiles 1 0 [] false }

/-- Its tile on array 63, drained, with nothing in its streams. -/
def gateTile : State × Flight :=
  let f := { flying (.tile ⟨1, 0⟩ 0 1) 8000 true with rows := [⟨[(0x3F800000, 0)], [], []⟩] }
  ({ onArray (mapped (one gated) false) ⟨some f, false, false, none, none, []⟩ with
     qn := { Quant.reset with caps := Quant.reset.caps.set ⟨1, 0⟩ (some (MatCap.fresh 6 false none {} oneF noProg)) } }, f)

/-- What `gateTile` needs to have captured. -/
theorem gateTile_ready : (gateTile.1.arr 63).fly = some gateTile.2 ∧ gateTile.2.ready = true ∧ gateTile.2.ran = 8000 ∧
    gateTile.1.rfld .islStatus 0 12 (63 / 4) ≠ 0 ∧ gateTile.2.job = .tile ⟨1, 0⟩ 0 1 ∧ gateTile.1.ctx? ⟨1, 0⟩ = some gated ∧ gated.op ≠ 0x41 :=
  ⟨rfl, rfl, rfl, by decide +kernel, rfl, by decide +kernel, by decide +kernel⟩

theorem witness_tile_commit :
    (gateTile.1.tileEnd gated gateTile.2 0 .none).found = none ∧ ∃ s0 m t,
      gateTile.1.payPart gated.stackAccts 64 (gateTile.1.commitBytes gated 0 (gateTile.1.tileEnd gated gateTile.2 0 .none) - gateTile.2.paid)
        (whoOf gated.fn) gated.part = (s0, m) ∧
      gateTile.1.commitBytes gated 0 (gateTile.1.tileEnd gated gateTile.2 0 .none) ≤ gateTile.2.paid + m ∧
      s0.putAll gated.fn [] (gateTile.1.tileEnd gated gateTile.2 0 .none).out = (t, none) :=
  ⟨by decide +kernel, _, _, _, rfl, by decide +kernel, done_of (by decide +kernel)⟩

/-- A byte of the staging area reads out wrong. -/
theorem witness_tile_mismatch : (gateTile.1.tileEnd gated gateTile.2 0 { line := [(0, 1)] }).found = some .chkStage := by decide +kernel

theorem witness_tiles_end :
    (∃ (s : State) (f : Flight), (s.arr 63).fly = some f ∧ f.ready = true ∧ f.job = .selftest ∧ f.ran ≤ 8000 ∧ s.runs (63 / 4) ∧
      s.rfld .islStatus 0 12 (63 / 4) ≠ 0) ∧
    (∃ (s : State) (f : Flight), (s.arr 63).fly = some f ∧ 8000 ≤ f.ran ∧ f.job = .tile ⟨1, 0⟩ 0 1 ∧
      ((s.abandon 63).radd32 .tileWatchdog (63 / 4) (63 % 4) 1).ctx? ⟨1, 0⟩ = some tiled) ∧
    (gateTile.1.runs (63 / 4) ∧ gateTile.2.streams.any Stream.wants = false) :=
  ⟨⟨onArray .reset ⟨some (flying .selftest 0 true), true, false, none, none, []⟩, _, rfl, rfl, rfl, by decide, by unfold State.runs; decide +kernel,
     by decide +kernel⟩,
   ⟨onArray (one tiled) ⟨some (flying (.tile ⟨1, 0⟩ 0 1) 8000 true), false, false, none, none, []⟩, _, rfl, by decide, rfl, by decide +kernel⟩,
   ⟨by unfold State.runs; decide +kernel, by decide +kernel⟩⟩

theorem triple_done {α β γ : Type} {r : α × β × Option γ} (h : r.2.2.isNone = true) : r = (r.1, r.2.1, none) :=
  Prod.ext rfl (Prod.ext rfl (Option.isNone_iff_eq_none.mp h))

/-- A stream of one line at device address 0, its windows filling the share to the last region. -/
theorem witness_feeder :
    ∃ (s t : State) (f : Flight) (reg : Nat) (l : List Stream), (s.arr 63).fly = some f ∧ s.runs (63 / 4) ∧ f.job = .tile ⟨1, 0⟩ 0 1 ∧
      s.ctx? ⟨1, 0⟩ = some gated ∧ f.streams.any Stream.wants = true ∧ windows f.streams = 960 ∧ s.freeRegion 63 = some reg ∧
      s.fillFirst (63 / 4) reg gated [] f.streams = (t, l, none) :=
  let st : Stream := { cls := 0, credit := true, win := 960, groups := [⟨.op (w64 (dev * 2 ^ 32)), 64, 0, 1, 0, 0⟩] }
  let f := { flying (.tile ⟨1, 0⟩ 0 1) 0 false with streams := [st], passes := 1 }
  let s := onArray (mapped (one gated) false) ⟨some f, false, false, none, none, []⟩
  ⟨s, _, f, 2880, _, rfl, by unfold State.runs; decide +kernel, rfl, by decide +kernel, by decide +kernel, by decide +kernel, by decide +kernel,
    triple_done (by decide +kernel)⟩

/-- A real-time step whose deadline is tick 0. -/
def late (x : Ctx) : Step := { Step.fresh x true with rt := true, hasDl := true, admitted := true, key := 0 }

theorem witness_slices :
    (∃ s : State, engineOk (.memCopy 7) = true ∧ s.rfld .islStatus 0 12 (engIsland (.memCopy 7)) ≠ 0 ∧
      (s.eng (.memCopy 7)).job = some ⟨1, 0⟩) ∧
    ((State.reset.eng (.quisto 1)).job = none ∧ (State.reset.eng (.quisto 1)).bg = false) ∧
    (∃ s : State, (s.eng (.memZero 7)).job = none ∧ (s.eng (.memZero 7)).bg = true ∧ s.bgWaits (.memZero 7) = false) ∧
    (∃ s : State, s.periods = true ∧ s.en.roundLogged = false ∧ ticks s.en.roundAt s.now = 40000000) :=
  ⟨⟨State.reset.withEn fun e => { e with eng := e.eng.set (.memCopy 7) ⟨some ⟨1, 0⟩, 0, none, none, false⟩ }, rfl, by decide +kernel,
     by decide +kernel⟩,
   ⟨rfl, rfl⟩,
   ⟨State.reset.withEn fun e => { e with eng := e.eng.set (.memZero 7) ⟨none, 0, none, none, true⟩ }, by decide +kernel, by decide +kernel,
     by decide +kernel⟩,
   { State.reset with now := 40000000 }, by decide +kernel, rfl, by decide +kernel⟩

theorem witness_deadline_miss :
    (∃ (s : State) (st : Step), s.cpRuns = true ∧ s.step? 0 = some st ∧ st.explicit = true ∧ st.rt = true ∧ st.hasDl = true ∧
      st.admitted = true ∧ st.missRaised = false ∧ st.ended = none ∧ s.passed st.key = true ∧
      (s.stepCtxs 0).filter (fun x => decide (x.phase ≠ .done)) = [] ∧ tenantOf st.fn = none) ∧
    (∃ (s : State) (st : Step) (x : Ctx), s.cpRuns = true ∧ s.step? 0 = some st ∧ st.explicit = true ∧ st.rt = true ∧ st.hasDl = true ∧
      st.admitted = true ∧ st.missRaised = false ∧ st.ended = none ∧ s.passed st.key = true ∧
      (s.stepCtxs 0).filter (fun x => decide (x.phase ≠ .done)) = [x] ∧ s.stallCause x = some 4 ∧ tenantOf st.fn = some 0) :=
  let x := pk 0x20 0 mm
  let y : Ctx := { pk 0 0 [] with fn := 0, phase := .done }
  ⟨⟨(one y).withCp fun c => { c with steps := c.steps.set 0 (some (late y)) }, late y, by decide +kernel, by decide +kernel, rfl, rfl, rfl, rfl, rfl,
     rfl, by decide +kernel, by decide +kernel, by decide +kernel⟩,
   ⟨(one x).withCp fun c => { c with steps := c.steps.set 0 (some (late x)) }, late x, x, by decide +kernel, by decide +kernel, rfl, rfl, rfl, rfl,
     rfl, rfl, by decide +kernel, by decide +kernel, by decide +kernel, by decide +kernel⟩⟩

/-! ### Tables, slots, memory -/

/-- A far operation of kind `kd` in flight since tick 0. -/
def farOp (kd : FarKind) : FarOp := { farWrite with kind := kd, qp := none }

theorem someOk_of {ε α : Type} {r : Option (Except ε α)} (h : (r.any good) = true) : ∃ a, r = some (.ok a) := by
  cases r with
  | none => simp at h
  | some e => obtain ⟨a, rfl⟩ := ok_of (by simpa using h); exact ⟨a, rfl⟩

theorem witness_row_read :
    ∃ (s : State) (r : RowRead) (l : Nat) (bs : List W8), s.mem.errs = [] ∧ r.repl = none ∧ (s.emb.reads.find? fun r => r.k = 0 ∧ !r.far) = some r ∧
      s.table? r.ten r.tab = some shard1 ∧ shard1.loc (r.row / shard1.d.rpb) = some l ∧ s.rowAt shard1 r.row = some (.ok bs) ∧
      r.for_ = .gather 0 0 := by
  obtain ⟨bs, h⟩ := someOk_of (r := ((withTable .reset shard1).withEmb fun e =>
    { e with reads := [⟨0, .gather 0 0, some 0, 0, 0, 0, false, none⟩] }).rowAt shard1 0) (by decide +kernel)
  exact ⟨(withTable .reset shard1).withEmb fun e => { e with reads := [⟨0, .gather 0 0, some 0, 0, 0, 0, false, none⟩] },
    ⟨0, .gather 0 0, some 0, 0, 0, 0, false, none⟩, 512, bs, rfl, rfl, by decide +kernel, by decide +kernel, by decide +kernel, h, rfl⟩

/-- A page operation in flight since tick 0. -/
def pageOp (out : Bool) : PageOp := ⟨0, out, none, 0, 0, 0, 1, 0, true, none, 0⟩

theorem witness_far :
    State.reset.runs 28 ∧
    (∃ s : State, (s.emb.far.find? fun o => o.k = 0 ∧ o.kind = .read ∧ o.outstanding ∧ o.qp = none) = some (farOp .read)) ∧
    (∃ s : State, (s.emb.far.find? fun o => o.k = 0 ∧ o.kind = .write ∧ o.outstanding ∧ o.qp = none) = some (farOp .write)) ∧
    (∃ s : State, (s.emb.far.find? fun o => o.k = 0 ∧ o.outstanding ∧ (o.kind ≠ .write ∨ o.qp.isSome)) = some (farOp .read) ∧
      s.farTimeout (farOp .read).part = ticks (farOp .read).issued s.now) ∧
    (∃ s : State, (s.emb.far.find? fun o => o.k = 0 ∧ o.outstanding ∧ (o.kind ≠ .write ∨ o.qp.isSome)) = none ∧
      (s.seq.ops.find? fun o => o.k = 0 ∧ o.outstanding ∧ o.data.isNone) = some (pageOp false) ∧
      s.farTimeout (pageOp false).part = ticks (pageOp false).issued s.now) :=
  ⟨by unfold State.runs; decide +kernel, ⟨State.reset.withEmb fun e => { e with far := [farOp .read] }, by decide +kernel⟩,
   ⟨State.reset.withEmb fun e => { e with far := [farOp .write] }, by decide +kernel⟩,
   ⟨{ State.reset.withEmb fun e => { e with far := [farOp .read] } with now := 5000000 }, by decide +kernel, by decide +kernel⟩,
   ⟨{ State.reset.withSeq fun e => { e with ops := [pageOp false] } with now := 5000000 }, rfl, by decide +kernel, by decide +kernel⟩⟩

theorem witness_placement :
    (∃ (s : State) (m : Move), (s.emb.moves.find? fun m => m.k = 0) = some m ∧ s.runs (16 + pageIsland (m.src / 512)) ∧
      (s.eng (.memCopy (pageIsland (m.src / 512)))).job = none ∧ (s.eng (.memCopy (pageIsland (m.src / 512)))).bg = true ∧
      s.table? m.ten m.tab = some shard1 ∧ (∀ i < 64, s.heldCause (64 * m.src + i) = none ∧ s.heldCause (64 * m.dst + i) = none) ∧
      (shard1.dir.get m.blk).version = m.version) ∧
    (State.reset.withMem fun m => { m with poison := [64 * 512 + 63] }).linePoison (64 * 512 + 63) = true ∧
    (State.reset.linePoison (64 * 512 + 63) = false ∧ State.reset.heldCause (64 * 1024 + 63) = none ∧
      State.reset.mem.tagErrs.contains ((64 * 1024 + 63) / 32768) = false ∧
      State.reset.rbit .chanState 16 (chanOf (64 * (64 * 1024 + 63))) = false) ∧
    (∃ s : State, s.emb.winDue = true ∧ s.emb.tabs.ents = []) ∧
    (∃ s : State, s.emb.winDue = true ∧ s.emb.tabs.ents = [((0, 0), some shard1)] ∧ shard1.defining = none) :=
  ⟨⟨((withTable .reset shard1).withEmb fun e => { e with moves := [⟨0, 0, 0, 0, 512, 1024, 0, 1⟩] }).withEn fun e =>
      { e with eng := e.eng.set (.memCopy 0) ⟨none, 0, none, none, true⟩ }, ⟨0, 0, 0, 0, 512, 1024, 0, 1⟩, by decide +kernel,
     by unfold State.runs; decide +kernel, by decide +kernel, by decide +kernel, by decide +kernel, by decide +kernel, by decide +kernel⟩,
   by decide +kernel, ⟨by decide +kernel, by decide +kernel, by decide +kernel, by decide +kernel⟩,
   ⟨State.reset.withEmb fun e => { e with winDue := true }, rfl, rfl⟩,
   ⟨(withTable .reset shard1).withEmb fun e => { e with winDue := true }, rfl, rfl, rfl⟩⟩

/-- A checked SEQ_CHUNK of one entry. -/
def chunk1 : Chunk := ⟨⟨1, 0⟩, 0, 0, some 0, [(⟨0, 0, 1, false⟩, .open_)], false, 0⟩

theorem witness_slots :
    (∃ s : State, packetOk 1 0 = true ∧ s.cpRuns = true ∧ s.chunk? (cmdId 1 0) = some chunk1 ∧ s.fam? chunk1.ten chunk1.fam = some family1 ∧
      chunk1.acquired = false ∧
      ((s.seq.chunks.find? fun k => k.ten = chunk1.ten ∧ k.fam = chunk1.fam ∧ !k.acquired).map (·.id)) = some (cmdId 1 0) ∧
      family1.d.paging = 0 ∧
      ((chunk1.ents.filter fun e => (family1.slots.get e.1.stream).entry.isNone).map (·.1.stream)).length ≤ family1.free) ∧
    (∃ s : State, s.runs 28 ∧ (s.seq.ops.find? fun o => o.k = 0 ∧ o.outstanding ∧ !o.out ∧ o.data.isNone) = some (pageOp false)) ∧
    (∃ s : State, s.runs 28 ∧ (s.seq.ops.find? fun o => o.k = 0 ∧ o.outstanding ∧ o.out) = some (pageOp true)) ∧
    (∃ (s : State) (p : Nat), s.runs (16 + 7) ∧ s.mem.dirty.get 7 = [p] ∧ s.pass [.bg 3] (512 * 4096 - s.mem.zeroPaid.get 7) = true ∧
      (s.mem.pages.get p).claim = none ∧ (∀ r ∈ s.mem.retry, r.line / 32768 ≠ p) ∧ s.mem.quiesce.contains (p / 768) = false ∧
      (s.eng (.memZero 7)).job = none ∧ (s.eng (.memZero 7)).bg = true) :=
  ⟨⟨(withFam .reset family1).withSeq fun k => { k with chunks := [chunk1] }, rfl, by decide +kernel, by decide +kernel, by decide +kernel, rfl,
     by decide +kernel, rfl, by decide +kernel⟩,
   ⟨(withFam .reset family1).withSeq fun k => { k with ops := [pageOp false] }, by unfold State.runs; decide +kernel, by decide +kernel⟩,
   ⟨(withFam .reset family1).withSeq fun k => { k with ops := [pageOp true] }, by unfold State.runs; decide +kernel, by decide +kernel⟩,
   ⟨(State.reset.withMem fun m => { m with dirty := m.dirty.set 7 [49151] }).withEn fun e =>
      { e with eng := e.eng.set (.memZero 7) ⟨none, 0, none, none, true⟩ }, 49151, by unfold State.runs; decide +kernel, by decide +kernel,
     by decide +kernel, by decide +kernel, by decide +kernel, by decide +kernel, by decide +kernel, by decide +kernel⟩⟩

/-- A record of a page-in that has come from the host and has been paid for. -/
theorem witness_page_in :
    ∃ (s t : State) (o : PageOp) (bs : List W8), (s.seq.ops.find? fun o => o.k = 0 ∧ o.data.isSome) = some o ∧ s.fam? o.ten o.fam = some family1 ∧
      o.data = some bs ∧ s.payOp o family1.d.rs = (t, true) ∧ t.recHeld family1 ((family1.slots.get o.stream).entry.getD 0) = none :=
  ⟨(withFam .reset family1).withSeq fun k => { k with ops := [{ pageOp false with data := some [] }] }, _, { pageOp false with data := some [] }, [],
    by decide +kernel, by decide +kernel, rfl, pair_of (by decide +kernel), by decide +kernel⟩

theorem witness_memory :
    State.reset.runs (16 + chanOf ((64 * 768 * 32768 - 1) * 64) / 8) ∧ (State.reset.mem.retry.find? fun r => r.line = 0) = none ∧
    (∀ b, ((State.reset.withMem fun m => { m with retry := [⟨0, 0, b⟩] }).mem.retry.find? fun r => r.line = 0) = some ⟨0, 0, b⟩) ∧
    State.reset.rfld .ifPolicy 0 3 7 ≠ 0 ∧ (State.reset.withMem fun m => { m with quiesce := [63] }).mem.quiesce.contains 63 = true ∧
    (State.reset.runs (16 + 63 / 8) ∧ State.reset.rbit .scrub 16 (63 / 8) = true ∧ State.reset.mem.scrubCnt.get 63 < State.reset.rfld .scrub 0 16 (63 / 8) ∧
      State.reset.inService 63 768 (State.reset.mem.scrubPos.get 63) = 0 ∧ State.reset.mem.scrubPos.get 63 ≤ 0 ∧ 0 + 1 < chanLines ∧
      State.reset.heldCause (chanLines * 63) = none) :=
  ⟨by unfold State.runs; decide +kernel, rfl, by decide, by decide +kernel, by decide +kernel,
   ⟨by unfold State.runs; decide +kernel, by decide +kernel, by decide +kernel, by decide +kernel, by decide +kernel, by decide +kernel,
    by decide +kernel⟩⟩

/-! ### The host link -/

theorem witness_host_link :
    State.reset.runs 28 ∧ (1 % 16 + 16 % 32 * 16 + b01 false * 512 ≠ State.reset.win.hostLink ∧
      0 % 16 + 0 % 32 * 16 + b01 false * 512 = State.reset.win.hostLink) ∧
    ((State.reset.withWin fun w => { w with ptmEnable := true }).ptmDue = true ∧ State.reset.ptmDue = false) ∧
    (State.reset.rbit .ptmStatus 0 = false ∧ State.reset.allDisabled = true ∧ State.reset.now.toNat ≤ (1000001 : W64).toNat ∧
      1000000 < ((1000001 : W64) - State.reset.now).toInt.natAbs) ∧
    ((State.reset.rput .ptmStatus 0 0 1).rbit .ptmStatus 0 = true ∧ fetching.allDisabled = false) ∧
    ((State.reset.withWin fun w => { w with ptmEnable := true, ptmFails := 9 }).ptmDue = true ∧
      (State.reset.withWin fun w => { w with ptmEnable := true, ptmFails := 8 }).ptmDue = true) ∧
    (∃ s : State, (s.queue 1).reads = [⟨0, 1, 0⟩] ∧ s.ctoPast (s.owner 1) 0 = true) ∧
    (∃ s : State, (s.queue 1).reads = [⟨0, 1, 0⟩] ∧ s.ctoPast (s.owner 1) 0 = false) ∧ (State.reset.queue 1).reads = [] ∧
    (State.reset.updIsl 28 fun i => { i with droop := some 0 }).clockOn 28 = false :=
  let reading : State := withQueue { mode := .running, enable := true, tail := 1, ringBase := 0x10000, reads := [⟨0, 1, 0⟩] }
  ⟨by unfold State.runs; decide +kernel, ⟨by decide +kernel, by decide +kernel⟩, ⟨by decide +kernel, by decide +kernel⟩,
   ⟨by decide +kernel, by decide +kernel, by decide +kernel, by decide +kernel⟩, ⟨by decide +kernel, by decide +kernel⟩,
   ⟨by decide +kernel, by decide +kernel⟩, ⟨{ reading with now := 100000000000 }, by decide +kernel, by decide +kernel⟩,
   ⟨reading, by decide +kernel, by decide +kernel⟩, by decide +kernel, by decide +kernel⟩

/-- The step of a first dialog that lands on a period boundary, and one that does not. -/
theorem witness_ptm_step : (200000 : W64) ≠ State.reset.now ∧ (200000 : W64).toNat % 100000 = 0 ∧ (200001 : W64).toNat % 100000 ≠ 0 := by
  decide +kernel

/-- A read of a far tier and a page-in that have been out for their function's completion timeout, or not yet. -/
theorem witness_completion_timeout :
    (∃ s : State, (s.emb.far.find? fun o => o.k = 0 ∧ o.kind = .read ∧ o.outstanding ∧ o.qp = none) = some (farOp .read) ∧
      s.ctoPast (vf (farOp .read).ten) (farOp .read).issued = true) ∧
    (∃ s : State, (s.emb.far.find? fun o => o.k = 0 ∧ o.kind = .read ∧ o.outstanding ∧ o.qp = none) = some (farOp .read) ∧
      s.ctoPast (vf (farOp .read).ten) (farOp .read).issued = false) ∧
    (∃ s : State, (s.seq.ops.find? fun o => o.k = 0 ∧ o.outstanding ∧ !o.out) = some (pageOp false) ∧
      s.ctoPast (vf (pageOp false).ten) (pageOp false).issued = true) ∧
    (∃ s : State, (s.seq.ops.find? fun o => o.k = 0 ∧ o.outstanding ∧ !o.out) = some (pageOp false) ∧
      s.ctoPast (vf (pageOp false).ten) (pageOp false).issued = false) :=
  let a := State.reset.withEmb fun e => { e with far := [farOp .read] }
  let b := State.reset.withSeq fun e => { e with ops := [pageOp false] }
  ⟨⟨{ a with now := 100000000000 }, by decide +kernel, by decide +kernel⟩, ⟨a, by decide +kernel, by decide +kernel⟩,
   ⟨{ b with now := 100000000000 }, by decide +kernel, by decide +kernel⟩, ⟨b, by decide +kernel, by decide +kernel⟩⟩

/-! ### Power, safety -/

theorem witness_power_cap :
    (∃ s : State, s.pwr.capAt = some 7 ∧ reached s.now 7 = true) ∧ (∃ s : State, s.pwr.escal = false ∧ s.pwr.overBot = 10) ∧
    (∃ s : State, s.pwr.escal = true ∧ s.pwr.under = 10) ∧ (∃ s : State, s.rbit .capStatus 7 = false ∧ s.pwr.above = 100) ∧
    (∃ s : State, s.rbit .capStatus 7 = true ∧ s.pwr.met = 100) :=
  ⟨⟨{ State.reset.withPwr fun p => { p with capAt := some 7 } with now := 7 }, rfl, by decide⟩,
   ⟨State.reset.withPwr fun p => { p with overBot := 10 }, rfl, rfl⟩, ⟨State.reset.withPwr fun p => { p with escal := true, under := 10 }, rfl, rfl⟩,
   ⟨State.reset.withPwr fun p => { p with above := 100 }, by decide +kernel, rfl⟩,
   ⟨(State.reset.rsetFld .capStatus 7 1 1).withPwr fun p => { p with met := 100 }, by decide +kernel, rfl⟩⟩

/-- Island `k` changed, at a time. -/
def onIsl (k : Nat) (now : W64) (f : Isl → Isl) : State := { State.reset.updIsl k f with now := now }

theorem witness_throttling :
    (∃ s : State, (s.isl 32).want.get 4 < (s.isl 32).dem.get 4 ∧ ticks ((s.isl 32).fall.get 4) s.now = 100000) ∧
    (∃ s : State, (s.isl 32).win = some 0 ∧ s.dutyTicks ≤ ticks 0 s.now) ∧
    (∃ s : State, (s.isl 15).heat = some 0 ∧ ticks 0 s.now = 2000000) ∧
    (∃ s : State, (s.isl 15).heat = some 0 ∧ ticks 0 s.now = 1999999) ∧
    State.reset.rbit .brake 3 ≠ true ∧ State.reset.pwr.tripped = false :=
  ⟨⟨onIsl 32 100000 fun i => { i with dem := i.dem.set 4 1 }, by decide +kernel, by decide +kernel⟩,
   ⟨onIsl 32 100000 fun i => { i with win := some 0 }, by decide +kernel, by decide +kernel⟩,
   ⟨onIsl 15 2000000 fun i => { i with heat := some 0 }, by decide +kernel, by decide +kernel⟩,
   ⟨onIsl 15 1999999 fun i => { i with heat := some 0 }, by decide +kernel, by decide +kernel⟩, by decide +kernel, rfl⟩

theorem witness_clock_faults :
    (State.reset.isl 32).droop = none ∧
    (∃ s : State, (s.isl 32).droop = some 0 ∧ ticks 0 s.now = 200) ∧ (∃ s : State, (s.isl 0).droop = some 0 ∧ ticks 0 s.now = 10200) ∧
    (State.reset.rput .safePolicy 0 0 0).rbit .safePolicy 2 = false ∧ State.reset.rbit .safePolicy 2 = true ∧
    (∃ s : State, (s.isl 32).fault = some 0 ∧ ticks 0 s.now = 1000000) ∧
    (State.reset.runs 29 ∧ State.reset.rbit .safePolicy 1 = true) ∧ (State.reset.rput .safePolicy 0 0 0).rbit .safePolicy 1 = false :=
  ⟨by decide +kernel, ⟨onIsl 32 200 fun i => { i with droop := some 0 }, by decide +kernel, by decide +kernel⟩,
   ⟨onIsl 0 10200 fun i => { i with droop := some 0 }, by decide +kernel, by decide +kernel⟩, by decide +kernel, by decide +kernel,
   ⟨onIsl 32 1000000 fun i => { i with fault := some 0 }, by decide +kernel, by decide +kernel⟩,
   ⟨by unfold State.runs; decide +kernel, by decide +kernel⟩, by decide +kernel⟩

theorem witness_entropy :
    State.reset.runs (30 + 1) ∧
    (∃ s : State, s.runs (30 + 1) ∧ s.entFailed 1 = true ∧ s.rbit .qstPolicy 2 = true ∧ ticks (s.qst.failAt.get 1) s.now = 10000000) ∧
    (∃ s : State, s.entFailed 1 = false ∧ s.qst.reqs.get 1 = 2 ^ 20) ∧
    (∃ s : State, s.entFailed 1 = false ∧ ticks (s.qst.seeded.get 1) s.now = 1000000000) :=
  ⟨by unfold State.runs; decide +kernel,
   ⟨{ State.reset.rput .entStatus 1 0 1 with now := 10000000 }, by unfold State.runs; decide +kernel, by decide +kernel, by decide +kernel,
     by decide +kernel⟩,
   ⟨State.reset.withQst fun q => { q with reqs := q.reqs.set 1 (2 ^ 20) }, by decide +kernel, by decide +kernel⟩,
   ⟨{ State.reset with now := 1000000000 }, by decide +kernel, by decide +kernel⟩⟩

/-! ### Rules over the block -/

theorem witness_bar4 :
    ((withArea 0 [] []).reached 0 ∧ ((withArea 0 [] []).strike []).inArea 0 4 = true) ∧
    ((State.reset.strike []).inArea 0 4 = false ∧ (State.reset.strike []).extOk 0 0 4 = false) ∧
    ((withVf (mapped .reset true)).reached 1 ∧ ((withVf (mapped .reset true)).strike []).extSealed 1 0 4 = true) ∧
    (((withVf (mapped .reset false)).strike []).extOk 1 (2097152 - 64) 64 = true ∧
      ((withVf (mapped .reset false)).strike []).extSealed 1 (2097152 - 64) 64 = false ∧ (2097152 - 64) % 64 + 64 ≤ 64 ∧
      ((withVf (mapped .reset false)).strike []).extHeld 1 (2097152 - 64) 64 = none ∧
      ((withVf (mapped .reset false)).strike []).linePoison (((withVf (mapped .reset false)).strike []).phys 1 (2097152 - 64) / 64) = false ∧
      ((withVf (mapped .reset false)).strike []).mem.errs.contains
        ⟨((withVf (mapped .reset false)).strike []).phys 1 (2097152 - 64) / 64, true⟩ = false ∧
      ((withVf (mapped .reset false)).strike []).canonical = true) ∧
    (((withVf (mapped .reset false)).meetExt 1 (2097152 - 64) 64).extOk 1 (2097152 - 64) 64 = true ∧
      ((withVf (mapped .reset false)).meetExt 1 (2097152 - 64) 64).extSealed 1 (2097152 - 64) 64 = false ∧
      ((withVf (mapped .reset false)).meetExt 1 (2097152 - 64) 64).extHeld 1 (2097152 - 64) 64 = none ∧
      ((withVf (mapped .reset false)).meetExt 1 (2097152 - 64) 64).firstPoison 1 (2097152 - 64) 64 = none) :=
  ⟨⟨⟨rfl, by decide +kernel⟩, by decide +kernel⟩, ⟨by decide +kernel, by decide +kernel⟩, ⟨⟨rfl, by decide +kernel⟩, by decide +kernel⟩,
   ⟨by decide +kernel, by decide +kernel, by decide, by decide +kernel, by decide +kernel, by decide +kernel, by decide +kernel⟩,
   ⟨by decide +kernel, by decide +kernel, by decide +kernel, by decide +kernel⟩⟩

/-- A poisoned line, a page refused by parity, and a line under retry, each in page 0 of function 1. -/
theorem witness_bar4_poison :
    (∃ s : State, (s.meetExt 1 0 4).extOk 1 0 4 = true ∧ (s.meetExt 1 0 4).extSealed 1 0 4 = false ∧ (s.meetExt 1 0 4).extHeld 1 0 4 = none ∧
      (s.meetExt 1 0 4).firstPoison 1 0 4 = some 0 ∧
      (((s.meetExt 1 0 4).linesOf 1 0 4).find? fun l => (s.meetExt 1 0 4).mem.tagErrs.contains (l / 32768)) = none) ∧
    (∃ s : State, (s.meetExt 1 0 4).extOk 1 0 4 = true ∧ (s.meetExt 1 0 4).extSealed 1 0 4 = false ∧ (s.meetExt 1 0 4).extHeld 1 0 4 = none ∧
      (s.meetExt 1 0 4).firstPoison 1 0 4 = some 0 ∧
      (((s.meetExt 1 0 4).linesOf 1 0 4).find? fun l => (s.meetExt 1 0 4).mem.tagErrs.contains (l / 32768)) = some 0) ∧
    (∃ s : State, (s.meetExt 1 0 4).extOk 1 0 4 = true ∧ (s.meetExt 1 0 4).extSealed 1 0 4 = false ∧ ∃ c, (s.meetExt 1 0 4).extHeld 1 0 4 = some c) :=
  ⟨⟨(mapped .reset false).withMem fun m => { m with poison := [0] }, by decide +kernel, by decide +kernel, by decide +kernel, by decide +kernel,
     by decide +kernel⟩,
   ⟨(mapped .reset false).withMem fun m => { m with tagErrs := [0] }, by decide +kernel, by decide +kernel, by decide +kernel, by decide +kernel,
     by decide +kernel⟩,
   ⟨(mapped .reset false).withMem fun m => { m with retry := [⟨0, 1, false⟩] }, by decide +kernel, by decide +kernel, some_of (by decide +kernel)⟩⟩

theorem witness_nop :
    ∃ (s : State) (x : Ctx) (a : W64) (st : Step), s.begins 0x00 1 0 x ∧ s.runs 28 ∧ w32 0 = (s.queue 1).done ∧ (s.queue 1).mode = .running ∧
      x.dropped = false ∧ (∀ y ∈ s.cp.ctxs, y.id ≠ ⟨1, w32 0 + 1⟩) ∧ s.step? x.sid = some st ∧ st.explicit = false ∧ bit (x.w 0) 10 = false ∧
      s.hostUp x.fn = true ∧ a = (s.queue 1).recAddr (w32 0) ∧ isDev a = false ∧ isDev (addrAdd a 4) = false :=
  ⟨run 0 0 [], pk 0 0 [], ((run 0 0 []).queue 1).recAddr (w32 0), Step.fresh (pk 0 0 []) false, begins_of (by decide +kernel),
    by unfold State.runs; decide +kernel, by decide +kernel, by decide +kernel, rfl, by decide +kernel, by decide +kernel, rfl, by decide +kernel,
    by decide +kernel, rfl, by decide +kernel, by decide +kernel⟩

theorem witness_refill : Acct.bg 0 ∈ allAccts ∧ Acct.bg 3 ∈ allAccts := by decide +kernel

/-- Two candidates of two steps. -/
theorem witness_lowest : ∃ l : List (Ctx × Nat), l ≠ [] ∧ l.length = 2 := ⟨[(tiled, 0), ({ tiled with sid := 1 }, 0)], by simp, rfl⟩

/-- The event ring of the PF: disabled, full, and with room for one record. -/
def ring (en tail : Nat) : State :=
  (((State.reset.rput .evqCtrl 0 0 (0x600 + en)).rput .evqTail 0 0 tail).rput .evqBase 0 0 0x1000).withCp fun c =>
    { c with fns := c.fns.set 0 ⟨true, false, false, 0, false⟩ }

theorem witness_events :
    (ring 1 63).reached 0 ∧ (ring 1 63).runs 28 ∧ (ring 1 63).runs 29 ∧ (ring 1 63).cp.halted = false ∧ (ring 1 63).rfld .evqCtrl 8 5 0 = 6 ∧
    ((ring 1 63).cp.evHeld.any fun w => w.1 == 0) = false ∧ (ring 0 0).rbit .evqCtrl 0 0 = false ∧
    (w32 ((ring 1 63).rnat .evqTail 0) - 63).toNat ≤ (w32 ((ring 1 63).rnat .evqTail 0) - w32 ((ring 1 63).rnat .evqHead 0)).toNat ∧
    2 ^ 6 ≤ ((ring 1 64).rnat .evqTail 0 + 2 ^ 32 - (ring 1 64).rnat .evqHead 0) % 2 ^ 32 ∧
    ((ring 1 63).rbit .evqCtrl 0 0 = true ∧ ((ring 1 63).rnat .evqTail 0 + 2 ^ 32 - (ring 1 63).rnat .evqHead 0) % 2 ^ 32 < 2 ^ 6 ∧
      tenantOf 0 = none ∧ (ring 1 63).hostUp 0 = true ∧
      isDev (addrAdd (ringAddr ((ring 1 63).rget ⟨.evqBase, 0, 0⟩)) (32 * ((ring 1 63).rnat .evqTail 0 % 2 ^ 6))) = false ∧
      isDev (addrAdd (addrAdd (ringAddr ((ring 1 63).rget ⟨.evqBase, 0, 0⟩)) (32 * ((ring 1 63).rnat .evqTail 0 % 2 ^ 6))) 4) = false) :=
  ⟨⟨rfl, by decide +kernel⟩, by unfold State.runs; decide +kernel, by unfold State.runs; decide +kernel, rfl, by decide +kernel, rfl,
   by decide +kernel, by decide +kernel, by decide +kernel,
   ⟨by decide +kernel, by decide +kernel, rfl, by decide +kernel, by decide +kernel, by decide +kernel⟩⟩

theorem witness_framed : Framed .EPOCH_OPEN [.epochCtrl] ∧ ∃ t, exec .EPOCH_OPEN .reset = .next t := ⟨.epochOpen, _, rfl⟩

/-! ### Single results from the manual's worked examples -/

/-- §18.6: the record of the refused command. -/
theorem test_record :
    recordBytes 0 1 0 0x60 0xC 0x41 0x004C0007 100000976300 =
      [0x00, 0x01, 0x60, 0x00, 0x0C, 0x00, 0x41, 0x00, 0x07, 0x00, 0x4C, 0x00, 0xAC, 0xCD, 0x85, 0x48] := by decide +kernel

/-- §02.12: the phase on either side of the wrap, and the slot of STEP_BEGIN. -/
theorem test_phase : phaseOf 0xFFFFFFD0 10 = 0 ∧ phaseOf 0x1A 10 = 1 ∧ (0xFFFFFFD0 : W32).toNat % 1024 = 976 := by decide +kernel

/-- §02.12: the doorbell of 75 packets is accepted, the racing older tail is rejected with reason 1. -/
theorem test_doorbell_judged :
    ({ Queue.reset with mode := .running, log2 := 10, tail := 0xFFFFFFD0, done := 0xFFFFFFD0 } : Queue).dbJudge 0x1B = none ∧
    ({ Queue.reset with mode := .running, log2 := 10, tail := 0x1B, done := 0xFFFFFFD0 } : Queue).dbJudge 0xFFFFFFF0 = some 1 := by
  decide +kernel

/-- §05.8: the yo-yo record of the training step. -/
theorem test_yoyo :
    yoyoBytes ⟨0x315, 0x29, 0xD17, 0x800, false, 0, 1, false, 1⟩ =
      [0x15, 0x03, 0x00, 0x00, 0x29, 0x00, 0x00, 0x00, 0x17, 0x0D, 0x00, 0x00, 0x00, 0x48, 0x10, 0x01] := by decide +kernel

/-- §18.6 and §14.12: DETAIL of ST_BADFIELD and of ST_FAULT. -/
theorem test_detail : badDetail 0 8 5 = 0xA80 ∧ badDetail 0 0 3 = 0x600 ∧ faultDetail 1 7 1 40 = 0x00284701 := by decide +kernel

/-- Tenant 1 with a budget of 192 array-µs and a balance. -/
def saver (n : Nat) : State := (State.reset.rput .tenBudArray 1 0 192).rput .tenBal 1 0 n

/-- §04.9: the allowance of the next period with 72, 0 and 192 array-µs left. -/
theorem test_refill :
    ((saver 72000).refill (.ten 1 0)).balance (.ten 1 0) = 264000 ∧ ((saver 0).refill (.ten 1 0)).balance (.ten 1 0) = 192000 ∧
    ((saver 192000).refill (.ten 1 0)).balance (.ten 1 0) = 384000 := by decide +kernel

/-- §17.9: where the monitoring tool finds its registers. -/
theorem test_offsets :
    State.reset.locAt 0 0x20001C = .queue 0 0x1C ∧ State.reset.locAt 0 0x220014 = .queue 2048 0x14 ∧
    State.reset.locAt 0 0x1470000 = .reg ⟨.arrayFenced, 7, 0⟩ false ∧ State.reset.locAt 0 0x1512920 = .reg ⟨.temp, 41, 0⟩ false ∧
    State.reset.locAt 0 0x1610100 = .reg ⟨.route, 0, 0⟩ false ∧ State.reset.locAt 0 0x20018 = .reg ⟨.fence, 0, 3⟩ true ∧
    State.reset.locAt 0 0x10100 = .reg ⟨.tenBudArray, 1, 0⟩ false := by decide +kernel

/-- Table 07.1: QMAX of INT8 is 127. -/
theorem test_qmax : qmaxF 1 = 0x42FE0000 := by decide +kernel

/-- The references of SIGMOID and TANH at 1 and of GELU at −2 (Table 06.8), from tables of the functions. -/
theorem test_gate_reference : toF32 (ofFix (sigmoidRef false fixOne)) = 0x3F3B26A8 ∧ toF32 (ofFix (tanhRef fixOne)) = 0x3F42F7D6 ∧
    toF32 ((ofInt (-2)).mul (ofFix (normRef true (2 * fixOne)))) = 0xBD3A5E7C := by decide +kernel

/-- A free result within 2⁻¹³ of the reference stands; one outside it gives way to the reference (R128). -/
theorem test_gate_bound :
    heldTo (ofFix (sigmoidRef false fixOne)) (.fin false 1 (-13)) (ofInt 0) (ofInt 1) 0x3F3B2700 = 0x3F3B2700 ∧
    heldTo (ofFix (sigmoidRef false fixOne)) (.fin false 1 (-13)) (ofInt 0) (ofInt 1) 0x3F800000 = 0x3F3B26A8 := by decide +kernel

/-- Both halves of a state that a command may answer. -/
def after (r : Host.Outcome State Fault Refusal) (p : State → Bool) : Bool :=
  match r with
  | .next t => p t
  | _ => false

/-- R23: bytes 4 to 15 of the record of a NOP are written before bytes 0 to 3. -/
theorem test_nop :
    after (exec (.NOP 1 0 []) (run 0 0 [])) (fun t => t.io ==
      [.hostWrite 1 0x20000 [0, 1, 0, 0], .hostWrite 1 0x20004 [0, 0, 0, 0, 0, 0, 0, 0, 0, 0, 0, 0]]) = true := by decide +kernel

/-- R11: EPOCH_OPEN sets OPEN. -/
theorem test_epoch_open : after (exec .EPOCH_OPEN .reset) (fun t => t.rbit .epochCtrl 0) = true := by decide +kernel

/-- R33: a signal raises the fence to a larger value and never lowers it. -/
theorem test_fence :
    after (exec (.FENCE_SIGNAL 1 0 []) (run 3 0 [5, 0, 0x42])) (fun t => t.rnat .fence 0 5 == 0x42) = true ∧
    after (exec (.FENCE_SIGNAL 1 0 []) ((run 3 0 [5, 0, 0x41]).rput .fence 0 5 0x42)) (fun t => t.rnat .fence 0 5 == 0x42) = true := by
  decide +kernel

end Sys2Proof.Tests
end

/-! Events and event rings (R37 to R39): what recording an event leaves unchanged and what it writes; then O58. -/

namespace Sys2Proof.Machine

/-! ### Writes through an address change nothing in the Command Processor -/

theorem State.lineWrite_cp {s t : State} {pa : Nat} {bs : List W8} (h : s.lineWrite pa bs = .ok t) : t.cp = s.cp := by
  unfold State.lineWrite at h
  dsimp only at h
  repeat' split at h
  all_goals cases h
  all_goals rfl

theorem State.devWriteGo_cp (k : Nat) : ∀ (s : State) (fn a : Nat) (bs : List W8), (State.devWriteGo k s fn a bs).1.cp = s.cp := by
  induction k with
  | zero => intros; rfl
  | succ k ih =>
    intro s fn a bs
    cases bs with
    | nil => rfl
    | cons b l =>
      simp only [State.devWriteGo]
      split
      · rfl
      · split
        · rfl
        · next hw => rw [ih, State.lineWrite_cp hw]

theorem State.opWrite_cp {s t : State} {fn : Nat} {a : W64} {bs : List W8} {o : Option Fail} (h : s.opWrite fn a bs = (t, o)) :
    t.cp = s.cp := by
  unfold State.opWrite at h
  split at h
  · have ht : t = (s.devWrite fn (offOf a) bs).1 := by rw [h]
    rw [ht]
    exact State.devWriteGo_cp ..
  · repeat' split at h
    all_goals
      cases h
      rfl

theorem State.ringWrite_queues {s t : State} {fn : Nat} {a : W64} {bs : List W8} {o : Option Fail}
    (h : s.ringWrite fn a bs = (t, o)) : t.cp.queues = s.cp.queues := by
  unfold State.ringWrite at h
  split at h
  · cases h
    rfl
  · next h4 =>
    split at h
    · next h0 =>
      cases h
      rw [State.opWrite_cp h0, State.opWrite_cp h4]
    · cases h
      rfl

/-! ### Recording an event leaves the queues alone -/

@[simp] theorem State.logWrite_queues (s : State) (a : W64) : (s.logWrite a).cp.queues = s.cp.queues := by
  unfold State.logWrite
  split <;> rfl

theorem State.putEvent_queues (s : State) (fn : Nat) (e : EvRec) (w : W64) : (s.putEvent fn e w).cp.queues = s.cp.queues := by
  unfold State.putEvent
  dsimp only
  split
  · next hw => exact (State.ringWrite_queues hw :)
  · next hw => exact (State.ringWrite_queues hw :)
  · next hw => exact (State.logWrite_queues _ _).trans (State.ringWrite_queues hw)

theorem State.eventAt_queues (s : State) (fn : Nat) (e : EvRec) (w : W64) : (s.eventAt fn e w).cp.queues = s.cp.queues := by
  unfold State.eventAt
  dsimp only
  split
  · rfl
  · split
    · split
      · rfl
      · exact s.putEvent_queues fn e w
    · exact s.putEvent_queues fn e w

/-- An event, whether it is written, held or lost, changes no queue. -/
theorem State.event_queue (s : State) (fn : Nat) (e : EvRec) : (s.event fn e).queue = s.queue := by
  have hq : (s.event fn e).cp.queues = s.cp.queues := by
    unfold State.event
    split
    · rfl
    · split
      · rfl
      · exact s.eventAt_queues fn e s.now
  funext q
  rw [State.queue, hq, State.queue]

/-! ### A ring record in host memory -/

@[simp] theorem toBytes_length (n v : Nat) : (toBytes n v).length = n := by
  induction n generalizing v with
  | zero => rfl
  | succ n ih => simp [toBytes, ih]

@[simp] theorem eventBytes_length (e : EvRec) (phase lost lostCount : Nat) (time : W64) :
    (eventBytes e phase lost lostCount time).length = 32 := by
  simp [eventBytes]

theorem State.opWrite_host {s : State} {fn : Nat} {a : W64} {bs : List W8} (hup : s.hostUp fn = true) (hclk : s.clockOn 28 = true)
    (ha : isDev a = false) (hb : bs ≠ []) : s.opWrite fn a bs = (s.send (.hostWrite fn (offOf a) bs), none) := by
  simp [State.opWrite, hup, hclk, ha, hb]

/-- A record longer than four bytes leaves as two writes, its first four bytes last (R34, R37). -/
theorem State.ringWrite_host {s : State} {fn : Nat} {a : W64} {bs : List W8} (hup : s.hostUp fn = true) (hclk : s.clockOn 28 = true)
    (ha : isDev a = false) (ha4 : isDev (addrAdd a 4) = false) (hb : 4 < bs.length) :
    s.ringWrite fn a bs =
      ((s.send (.hostWrite fn (offOf (addrAdd a 4)) (bs.drop 4))).send (.hostWrite fn (offOf a) (bs.take 4)), none) := by
  have hdrop : bs.drop 4 ≠ [] := by rw [Ne, List.drop_eq_nil_iff]; omega
  have htake : bs.take 4 ≠ [] := List.ne_nil_of_length_pos (by rw [List.length_take]; omega)
  have hlast := State.opWrite_host (s := s.send (.hostWrite fn (offOf (addrAdd a 4)) (bs.drop 4))) hup hclk ha htake
  rw [State.ringWrite, State.opWrite_host hup hclk ha4 hdrop]
  dsimp only
  rw [hlast]

/-! ### The two outcomes of an event that R38 distinguishes -/

theorem State.rnat_radd32 (s : State) (n : RegName) (i j k : Nat) :
    (s.radd32 n i j k).rnat n i j = (s.rnat n i j + k) % 2 ^ 32 := by
  rw [State.radd32, State.rnat_rput, if_pos rfl]
  omega

/-- The state after an event of function `fn` is lost under R38: counted in TEN.EVQ_LOST, and remembered for the next record. -/
def State.loseEvent (s : State) (fn : Nat) : State :=
  (s.radd32 .evqLost fn 0 1).withCp fun c => { c with evLost := c.evLost.upd fn (· + 1) }

/-- The event ring of a function holds as many records as it has entries (R24). -/
def State.evqFull (s : State) (fn : Nat) : Prop :=
  2 ^ s.rfld .evqCtrl 8 5 fn ≤ (s.rnat .evqTail fn + 2 ^ 32 - s.rnat .evqHead fn) % 2 ^ 32

/-- TEN_EVQ_CAP leaves a function's ring room for a record in this period (R88). -/
def State.evqUncapped (s : State) (fn : Nat) : Prop :=
  ∀ t, tenantOf fn = some t → s.rfld .tenEvqCap 0 16 t = 0 ∨ s.cp.evWritten.get fn < s.rfld .tenEvqCap 0 16 t

/-- Where the next record of a function's event ring goes. -/
def State.evqSlot (s : State) (fn : Nat) : W64 :=
  addrAdd (ringAddr (s.rget ⟨.evqBase, fn, 0⟩)) (32 * (s.rnat .evqTail fn % 2 ^ s.rfld .evqCtrl 8 5 fn))

/-- The bytes of an event that occurs now, as the next record of a function's event ring (Table 02.9). -/
def State.evqRecord (s : State) (fn : Nat) (e : EvRec) : List W8 :=
  eventBytes e (1 - fld (s.rnat .evqTail fn) (s.rfld .evqCtrl 8 5 fn) 1) (b01 (s.cp.evLost.get fn ≠ 0)) (s.cp.evLost.get fn) s.now

section
variable {s : State} {fn : Nat} {e : EvRec} (hrun : s.cp.halted = false) (hheld : (s.cp.evHeld.any fun w => w.1 == fn) = false)
include hrun hheld

/-- While the CP runs and no event of the ring waits for its line, an event is recorded at once (R219). -/
theorem State.event_now : s.event fn e = s.eventAt fn e s.now := by
  simp [State.event, hrun, hheld]

theorem State.event_lost (hlost : s.rbit .evqCtrl 0 fn = false ∨ s.evqFull fn) : s.event fn e = s.loseEvent fn := by
  rw [State.event_now hrun hheld, State.eventAt, State.loseEvent]
  dsimp only
  rw [if_pos]
  rcases hlost with hoff | hfull
  · simp [hoff]
  · simpa using .inr hfull

theorem State.event_put (hen : s.rbit .evqCtrl 0 fn = true) (hroom : ¬s.evqFull fn) (hcap : s.evqUncapped fn) :
    s.event fn e = s.putEvent fn e s.now := by
  rw [State.event_now hrun hheld, State.eventAt]
  dsimp only
  rw [if_neg (by simpa [hen, State.evqFull] using hroom)]
  split
  · next t ht =>
    rw [if_neg]
    have := hcap t ht
    omega
  · rfl

end

/-- A record written to a ring in host memory: both writes sent, the loss it reports forgotten, the tail advanced, the vector's cause raised. -/
theorem State.putEvent_host {s : State} {fn : Nat} {e : EvRec} (hup : s.hostUp fn = true) (hclk : s.clockOn 28 = true)
    (ha : isDev (s.evqSlot fn) = false) (ha4 : isDev (addrAdd (s.evqSlot fn) 4) = false) :
    s.putEvent fn e s.now =
      (((((s.send (.hostWrite fn (offOf (addrAdd (s.evqSlot fn) 4)) ((s.evqRecord fn e).drop 4))).send
        (.hostWrite fn (offOf (s.evqSlot fn)) ((s.evqRecord fn e).take 4))).radd32 .evqTail fn 0 1).withCp fun c =>
          { c with evLost := c.evLost.set fn 0, evWritten := c.evWritten.upd fn (· + 1) }).cause fn (s.rfld .evqCtrl 16 5 fn)) := by
  have hlen : 4 < (s.evqRecord fn e).length := by rw [State.evqRecord, eventBytes_length]; omega
  have hw := State.ringWrite_host hup hclk ha ha4 hlen
  rw [State.evqSlot, State.evqRecord] at hw
  rw [State.putEvent, State.evqSlot, State.evqRecord]
  dsimp only
  rw [hw]

theorem State.evqHeadWrite_between {s : State} {fn : Nat} {v : W32}
    (hv : (w32 (s.rnat .evqTail fn) - v).toNat ≤ (w32 (s.rnat .evqTail fn) - w32 (s.rnat .evqHead fn)).toNat) :
    s.evqHeadWrite fn v = s.rput .evqHead fn 0 v.toNat := by
  rw [State.evqHeadWrite]
  exact if_pos hv

/-- Settles O58: each clause is one of the outcomes above, with the ring, its slot and its record as the model computes them. -/
theorem eventsAreLostOnAFullRing : Obligations.EventsAreLostOnAFullRing := by
  unfold Obligations.EventsAreLostOnAFullRing
  intro s fn k e v hreach hrun hk hheld
  subst hk
  refine ⟨fun hclk hv => ?head, fun hlost => ?lost, fun a b hclk hen hroom hcap hup hslot ha ha4 hb => ?put⟩
  case head =>
    refine ⟨_, answer_reached hreach.2 hreach.1 _ ((State.onIsland_runs hclk _).trans (State.evqHeadWrite_between hv)), ?_⟩
    rw [State.rnat_rput, if_pos rfl]
    omega
  case lost =>
    rw [State.event_lost hrun hheld hlost]
    exact ⟨s.rnat_radd32 .evqLost fn 0 1, by simp [State.loseEvent, State.radd32], rfl, rfl,
      by simp [State.loseEvent, State.radd32]⟩
  case put =>
    subst hslot hb
    rw [State.event_put hrun hheld hen (Nat.not_le.mpr hroom) hcap, State.putEvent_host hup hclk ha ha4]
    exact ⟨rfl, by simp [State.cause, State.updVec, State.radd32], State.rnat_radd32 _ .evqTail fn 0 1⟩

end Sys2Proof.Machine

/-! Doorbells (R27, R28): the rows of Table 02.3, each as what an aligned write of 4 or 8 bytes then does; then O23. -/

namespace Sys2Proof.Machine

/-! ### Table 02.3 on a queue that exists -/

section
variable {Q : Queue} {V : W32}

theorem Queue.dbJudge_not_running (h : Q.mode ≠ .running) : Q.dbJudge V = some 3 := if_pos h

variable (hrun : Q.mode = .running)
include hrun

theorem Queue.dbJudge_same (h : V = Q.tail) : Q.dbJudge V = none := by
  simp [Queue.dbJudge, hrun, h]

theorem Queue.dbJudge_behind (hne : V ≠ Q.tail) (h : 2 ^ 31 ≤ (V - Q.tail).toNat) : Q.dbJudge V = some 1 := by
  rw [Queue.dbJudge, if_neg (not_not.mpr hrun), if_neg hne, if_pos h]

theorem Queue.dbJudge_past_entries (hne : V ≠ Q.tail) (hahead : (V - Q.tail).toNat < 2 ^ 31) (h : Q.entries < (V - Q.done).toNat) :
    Q.dbJudge V = some 2 := by
  rw [Queue.dbJudge, if_neg (not_not.mpr hrun), if_neg hne, if_neg (Nat.not_le.mpr hahead), if_pos h]

theorem Queue.dbJudge_within (hahead : (V - Q.tail).toNat < 2 ^ 31) (h : (V - Q.done).toNat ≤ Q.entries) : Q.dbJudge V = none := by
  by_cases hne : V = Q.tail
  · exact Queue.dbJudge_same hrun hne
  · rw [Queue.dbJudge, if_neg (not_not.mpr hrun), if_neg hne, if_neg (Nat.not_le.mpr hahead), if_neg (Nat.not_lt.mpr h)]

end

/-! ### A doorbell write -/

/-- The queue that local index `i` of a function names, if any (R21, R27). -/
def State.doorbellQueue (s : State) (fn i : Nat) : Option Nat :=
  match tenantOf fn with
  | some t => if i < (s.qRange t).2 then some ((s.qRange t).1 + i) else none
  | none => if s.owner i = 0 then some i else none

section
variable {s : State} {fn i size : Nat} {v : W64} (hsize : size = 4 ∨ size = 8)
include hsize

/-- An aligned write goes by its high half, the queue it names and Table 02.3, in this order. -/
theorem State.doorbell_aligned :
    s.doorbell fn (8 * i) size v =
      if (if size = 8 then v.toNat / 2 ^ 32 else 0) ≠ 0 then
        s.dbReject fn i ((s.doorbellQueue fn i).getD 0xFFFF) (w32 v.toNat).toNat 5
      else (s.doorbellQueue fn i).elim (s.dbReject fn i 0xFFFF (w32 v.toNat).toNat 4) fun q =>
        ((s.queue q).dbJudge (w32 v.toNat)).elim (s.updQueue q fun Q => { Q with tail := w32 v.toNat })
          (s.dbReject fn i q (w32 v.toNat).toNat) := by
  have hi : 8 * i / 8 = i := by omega
  rw [State.doorbell, if_neg (by omega), hi]
  change (if _ then State.dbReject s fn i ((s.doorbellQueue fn i).getD 0xFFFF) _ _ else
    match s.doorbellQueue fn i with | none => _ | some q => _) = _
  cases s.doorbellQueue fn i with
  | none => rfl
  | some q => cases hj : (s.queue q).dbJudge (w32 v.toNat) <;> simp [hj]

theorem State.doorbell_high (h8 : size = 8) (hhigh : v.toNat / 2 ^ 32 ≠ 0) :
    s.doorbell fn (8 * i) size v = s.dbReject fn i ((s.doorbellQueue fn i).getD 0xFFFF) (w32 v.toNat).toNat 5 := by
  rw [State.doorbell_aligned hsize, if_pos h8, if_pos hhigh]

variable (hlow : size = 4 ∨ v.toNat / 2 ^ 32 = 0)
include hlow

/-- With nothing in the upper half, reason 5 does not arise. -/
theorem State.doorbell_low :
    s.doorbell fn (8 * i) size v =
      (s.doorbellQueue fn i).elim (s.dbReject fn i 0xFFFF (w32 v.toNat).toNat 4) fun q =>
        ((s.queue q).dbJudge (w32 v.toNat)).elim (s.updQueue q fun Q => { Q with tail := w32 v.toNat })
          (s.dbReject fn i q (w32 v.toNat).toNat) := by
  rw [State.doorbell_aligned hsize, if_neg]
  split <;> omega

theorem State.doorbell_unnamed (hq : s.doorbellQueue fn i = none) :
    s.doorbell fn (8 * i) size v = s.dbReject fn i 0xFFFF (w32 v.toNat).toNat 4 := by
  rw [State.doorbell_low hsize hlow, hq]
  rfl

theorem State.doorbell_rejected {q r : Nat} (hq : s.doorbellQueue fn i = some q) (hj : (s.queue q).dbJudge (w32 v.toNat) = some r) :
    s.doorbell fn (8 * i) size v = s.dbReject fn i q (w32 v.toNat).toNat r := by
  rw [State.doorbell_low hsize hlow, hq, Option.elim_some, hj, Option.elim_some]

theorem State.doorbell_accepted {q : Nat} (hq : s.doorbellQueue fn i = some q) (hj : (s.queue q).dbJudge (w32 v.toNat) = none) :
    s.doorbell fn (8 * i) size v = s.updQueue q fun Q => { Q with tail := w32 v.toNat } := by
  rw [State.doorbell_low hsize hlow, hq, Option.elim_some, hj, Option.elim_none]

end

theorem leadsTo_doorbell {s t : State} {fn off size : Nat} {v : W64} (h : s.reached fn) (e : s.doorbell fn off size v = t) :
    LeadsTo (.DOORBELL fn off size v) s t :=
  answer_reached h.2 h.1 _ e

theorem State.dbReject_queue (s : State) (fn i q tail r : Nat) : (s.dbReject fn i q tail r).queue = s.queue :=
  (s.radd32 .dbReject fn 0 1).event_queue fn _

/-- Settles O23: every clause is a row of Table 02.3, and raising the event leaves the queues alone. -/
theorem doorbellsAreJudged : Obligations.DoorbellsAreJudged := by
  unfold Obligations.DoorbellsAreJudged
  intro s fn i size v mine V rej hreach hsize hmine hV hrej
  obtain rfl : mine = s.doorbellQueue fn i := hmine
  obtain rfl : rej = fun q r => s.dbReject fn i q V.toNat r := hrej
  subst hV
  refine ⟨fun h8 hhigh => ?high, fun hlow => ⟨fun hq => ?unnamed, fun q hq hmode => ?stopped, fun q hq hrun => ?running⟩,
    fun q r => s.dbReject_queue fn i q _ r⟩
  case high => exact leadsTo_doorbell hreach (State.doorbell_high hsize h8 hhigh)
  case unnamed => exact leadsTo_doorbell hreach (State.doorbell_unnamed hsize hlow hq)
  case stopped => exact leadsTo_doorbell hreach (State.doorbell_rejected hsize hlow hq (Queue.dbJudge_not_running hmode))
  case running =>
    refine ⟨fun hsame => ?same, fun hne hbehind => ?behind, fun hahead hne hpast => ?past, fun hahead hwithin => ?within⟩
    case same => exact leadsTo_doorbell hreach (State.doorbell_accepted hsize hlow hq (Queue.dbJudge_same hrun hsame))
    case behind => exact leadsTo_doorbell hreach (State.doorbell_rejected hsize hlow hq (Queue.dbJudge_behind hrun hne hbehind))
    case past => exact leadsTo_doorbell hreach (State.doorbell_rejected hsize hlow hq (Queue.dbJudge_past_entries hrun hne hahead hpast))
    case within => exact leadsTo_doorbell hreach (State.doorbell_accepted hsize hlow hq (Queue.dbJudge_within hrun hahead hwithin))

end Sys2Proof.Machine

/-! MODEL_PIN (R61): what it does with a model that is not resident, in an isolated partition and in a pooled one; then O8. -/

namespace Sys2Proof.Machine

/-- The slots a model's pin would add take its partition's pinned slots above PIN_MAX (R61). -/
abbrev State.pinExceeds (s : State) (p : Nat) (m : Model) : Prop :=
  m.pinned = false ∧ s.rfld .toy 16 9 p < s.pinnedSlots p + m.slots.length

/-- The state in which model `h` of tenant `t`, being `m`, has its pin set or cleared. -/
def State.setPinned (s : State) (t h : Nat) (m : Model) (b : Bool) : State :=
  s.withToy fun y => { y with models := y.models.set (t, h) (some { m with pinned := b }) }

section
variable {s : State} {x : Ctx} {k : Nat} (hk : k = fld (x.w 2) 0 10) (hahead : s.evictAhead x k = false)
include hk hahead

theorem State.modelPin_absent (hm : s.model? x.ten k = none) : s.modelPin x = s.finish x.id stRefused 1 := by
  subst hk
  simp [State.modelPin, hahead, hm]

variable {m : Model} (hm : s.model? x.ten k = some m)
include hm

theorem State.modelPin_loading (hres : m.resident = false) : s.modelPin x = s.finish x.id stRefused 1 := by
  subst hk
  simp [State.modelPin, hahead, hm, hres]

variable (hres : m.resident = true)
include hres

theorem State.modelPin_isolated (hiso : s.isolated (x.part.getD 0) = true) : s.modelPin x = s.finish x.id stDone 0 := by
  subst hk
  simp [State.modelPin, hahead, hm, hres, hiso]

variable (hiso : s.isolated (x.part.getD 0) = false)
include hiso

/-- In a pooled partition only a pin can meet PIN_MAX; what does not exceed it sets the mark that SUBOP names. -/
theorem State.modelPin_pooled :
    s.modelPin x = if x.sub = 0 ∧ s.pinExceeds (x.part.getD 0) m then s.finish x.id stNoResource 0
      else (s.setPinned x.ten k m (decide (x.sub = 0))).finish x.id stDone 0 := by
  subst hk
  simp [State.modelPin, State.pinExceeds, State.setPinned, hahead, hm, hres, hiso]

theorem State.modelPin_unpins (hsub : x.sub = 1) : s.modelPin x = (s.setPinned x.ten k m false).finish x.id stDone 0 := by
  rw [State.modelPin_pooled hk hahead hm hres hiso, if_neg (by omega), hsub]
  rfl

theorem State.modelPin_pins (hsub : x.sub = 0) (hfits : ¬s.pinExceeds (x.part.getD 0) m) :
    s.modelPin x = (s.setPinned x.ten k m true).finish x.id stDone 0 := by
  rw [State.modelPin_pooled hk hahead hm hres hiso, if_neg (fun h => hfits h.2), hsub]
  rfl

theorem State.modelPin_exceeds (hsub : x.sub = 0) (hexc : s.pinExceeds (x.part.getD 0) m) :
    s.modelPin x = s.finish x.id stNoResource 0 := by
  rw [State.modelPin_pooled hk hahead hm hres hiso, if_pos ⟨hsub, hexc⟩]

end

/-- A pin that stands, or that PIN_MAX leaves room for, is not refused. -/
theorem State.not_pinExceeds {s : State} {p : Nat} {m : Model}
    (h : m.pinned = true ∨ s.pinnedSlots p + m.slots.length ≤ s.rfld .toy 16 9 p) : ¬s.pinExceeds p m := by
  rintro ⟨hpin, hover⟩
  rcases h with hstands | hroom
  · exact absurd (hstands.symm.trans hpin) (by decide)
  · exact Nat.not_lt.mpr hroom hover

/-- Settles O8: each clause is one of the outcomes of MODEL_PIN above. -/
theorem modelPinsFollowTheirLimit : Obligations.ModelPinsFollowTheirLimit := by
  unfold Obligations.ModelPinsFollowTheirLimit
  intro s q c h x k p hb hk hp hahead
  subst hp
  have leads {t : State} (e : s.modelPin x = t) : LeadsTo (.MODEL_PIN q c h) s t := answer_begins hb _ _ e
  refine ⟨fun hm => ?absent, fun m hm hres => ?loading, fun m hm hres hiso => ?isolated,
    fun m hm hres hiso hsub => ?unpin, fun m hm hres hiso hsub hfits => ?pin, fun m hm hres hiso hsub hpin hover => ?exceeds⟩
  case absent => exact leads (State.modelPin_absent hk hahead hm)
  case loading => exact leads (State.modelPin_loading hk hahead hm hres)
  case isolated => exact leads (State.modelPin_isolated hk hahead hm hres hiso)
  case unpin => exact leads (State.modelPin_unpins hk hahead hm hres hiso hsub)
  case pin => exact leads (State.modelPin_pins hk hahead hm hres hiso hsub (State.not_pinExceeds hfits))
  case exceeds => exact leads (State.modelPin_exceeds hk hahead hm hres hiso hsub ⟨hpin, hover⟩)

end Sys2Proof.Machine

/-! The queue of commands: every command answers by its operands alone, so a queue of well-formed commands stays one and runs dry; O1 to O4. -/

namespace Sys2Proof.Machine

/-- Every row answers through `answer`, guarded by the check that `wellFormed` makes of the command's operands. -/
theorem exec_eq_answer (c : Instr) (s : State) : ∃ t, exec c s = answer c.wellFormed s t := by
  cases c <;> exact ⟨_, rfl⟩

theorem exec_wellFormed {c : Instr} (hc : c.wellFormed = true) (s : State) : ∃ t, exec c s = .next t ∧ t.pending = s.pending := by
  obtain ⟨t, ht⟩ := exec_eq_answer c s
  exact ⟨t.keeping s, by rw [ht, hc, answer_true], rfl⟩

theorem exec_illFormed {c : Instr} (hc : c.wellFormed = false) (s : State) : exec c s = .fault .noSuchUnit := by
  obtain ⟨t, ht⟩ := exec_eq_answer c s
  rw [ht, hc, answer_false]

theorem step_cons {s : State} {c : Instr} {rest : List Instr} (h : s.pending = c :: rest) :
    step s = exec c { s with pending := rest } := by
  rw [step, h]

theorem step_nil {s : State} (h : s.pending = []) : step s = .next (s.tick.keeping s) := by
  rw [step, h, State.keeping, h]

/-- A step takes the front command off a sound queue, and what is left is sound. -/
theorem step_sound {s : State} (h : s.queueSound) : ∃ t, step s = .next t ∧ t.queueSound ∧ t.pending = s.pending.tail := by
  cases hp : s.pending with
  | nil =>
    exact ⟨_, step_nil hp, fun c hc => by simp [hp] at hc, by simp [hp]⟩
  | cons c rest =>
    obtain ⟨t, ht, hq⟩ := exec_wellFormed (h c (by rw [hp]; exact List.mem_cons_self)) { s with pending := rest }
    exact ⟨t, (step_cons hp).trans ht, fun d hd => h d (by rw [hp]; exact List.mem_cons_of_mem _ (by rwa [hq] at hd)), hq⟩

theorem run_step {s t : State} (h : step s = .next t) (n : Nat) : Host.Core.run core (n + 1) s = Host.Core.run core n t := by
  simp only [Host.Core.run, show core.step s = .next t from h]

/-- Settles O1: the two branches of `step`. -/
theorem stepRunsTheFrontCommand : Obligations.StepRunsTheFrontCommand := by
  unfold Obligations.StepRunsTheFrontCommand
  exact ⟨fun _ _ _ => step_cons, fun _ => step_nil⟩

/-- Settles O2: every row answers by the check that `wellFormed` makes. -/
theorem commandsAnswerByTheirOperands : Obligations.CommandsAnswerByTheirOperands := by
  unfold Obligations.CommandsAnswerByTheirOperands
  exact ⟨fun _ s hc => exec_wellFormed hc s, fun _ s hc => exec_illFormed hc s⟩

/-- Settles O3: a well-formed command has a next state, and takes nothing from the queue behind it. -/
theorem everyStepKeepsTheQueueSound : Obligations.EveryStepKeepsTheQueueSound := by
  unfold Obligations.EveryStepKeepsTheQueueSound
  exact fun _ => step_sound

/-- Settles O4, by induction on the number of commands that wait. -/
theorem aSoundQueueRunsDry : Obligations.ASoundQueueRunsDry := by
  unfold Obligations.ASoundQueueRunsDry
  intro s h
  generalize hn : s.pending.length = n
  induction n generalizing s with
  | zero => exact ⟨s, rfl, List.length_eq_zero_iff.mp hn⟩
  | succ n ih =>
    obtain ⟨t, ht, hsound, hp⟩ := step_sound h
    obtain ⟨u, hu, hdry⟩ := ih t hsound (by rw [hp, List.length_tail, hn, Nat.add_sub_cancel])
    exact ⟨u, (run_step ht n).trans hu, hdry⟩

end Sys2Proof.Machine

/-! An open epoch (R65): 32-bit writes of RWE registers reach the shadows and the staged halves alone; then O60. -/

namespace Sys2Proof.Machine

/-- The state with other shadows and other staged lower halves: all that writes in an open epoch change (R65). -/
def State.withShadows (s : State) (sh : List (Reg × W64)) (st : List (HalfKey × W32)) : State :=
  { s with rf := { s.rf with shadow := sh, staged := st } }

/-- Registers with RWE fields are the PF's alone (R368). -/
theorem State.vfShared_of_rwe {s : State} {r : Reg} (h : isRwe r.n = true) : s.vfShared r = false := by
  unfold State.vfShared
  split <;> simp_all [isRwe, wrOf]

section
variable {s : State} (hopen : s.epochOpen = true) (hpend : s.epochPending = false)
include hopen hpend

theorem State.rweWrite_shadows (r : Reg) (m v : Nat) : ∃ sh, s.rweWrite r m v = s.withShadows sh s.rf.staged := by
  simp only [State.rweWrite, hopen, hpend, Bool.not_false, Bool.and_self, if_true]
  exact ⟨_, rfl⟩

theorem State.regWrite_rwe_shadows {r : Reg} (hr : isRwe r.n = true) (v : Nat) (h : HostData) :
    ∃ sh, s.regWrite 0 r v h = s.withShadows sh s.rf.staged := by
  rw [State.regWrite, State.vfShared_of_rwe hr, if_neg (by decide), State.regPut]
  cases hw : wrOf r.n with
  | rwe m => exact State.rweWrite_shadows hopen hpend r m v
  | ro => simp [isRwe, hw] at hr
  | rw m => simp [isRwe, hw] at hr
  | act => simp [isRwe, hw] at hr

/-- A half of a wide RWE register: the lower is staged for the shadow, the upper writes the shadow (R10, R65). -/
theorem State.halfWrite_rwe_shadows {r : Reg} (hr : isRwe r.n = true) (w upper : Bool) (v : Nat) (h : HostData) :
    ∃ sh st, s.halfWrite 0 (.reg r w) upper v h = s.withShadows sh st := by
  have hro : wrOf r.n ≠ .ro := fun hw => by simp [isRwe, hw] at hr
  cases upper with
  | false => exact ⟨s.rf.shadow, _, by simp [State.halfWrite, State.withShadows, hr, hro, hopen, hpend]; rfl⟩
  | true =>
    obtain ⟨sh, hsh⟩ := State.regWrite_rwe_shadows (s := s.withShadows s.rf.shadow (Tab.drop ⟨0, r, true⟩ s.rf.staged)) hopen hpend hr
      (((assoc? s.rf.staged ⟨0, r, true⟩).getD (w32 (s.shadowOf r).toNat)).toNat + v * 2 ^ 32) h
    refine ⟨sh, Tab.drop ⟨0, r, true⟩ s.rf.staged, Eq.trans ?_ hsh⟩
    simp [State.halfWrite, State.withShadows, hr, hro, hopen, hpend]

/-- RWE_WRITE of a word, wherever it falls, changes the shadows and the staged halves and nothing else. -/
theorem State.rweRow_shadows (o : Nat) (v : W64) : ∃ sh st, s.rweRow o 4 v = s.withShadows sh st := by
  have same : ∃ sh st, s = s.withShadows sh st := ⟨s.rf.shadow, s.rf.staged, rfl⟩
  unfold State.rweRow
  dsimp only
  split
  · next r w hl =>
    split
    · next hr =>
      rw [State.bar0Write]
      split
      · rw [State.busWrite]
        split
        · exact same
        · rw [if_pos rfl, State.writeWord]
          split
          · next hw =>
            rw [if_pos hw] at hl
            rw [hl]
            exact State.halfWrite_rwe_shadows hopen hpend hr _ _ _ _
          · next hw =>
            rw [if_neg hw] at hl
            rw [hl]
            obtain ⟨sh, hsh⟩ := State.regWrite_rwe_shadows hopen hpend hr (v.toNat % 2 ^ 32) []
            exact ⟨sh, _, hsh⟩
      · exact same
    · exact same
  · exact same

theorem State.abandonEpoch_open :
    s.abandonEpoch = (s.withShadows [] (s.rf.staged.filter fun e => !e.1.shadow)).rput .epochCtrl 0 0 0 := by
  simp [State.abandonEpoch, State.withShadows, hopen, hpend]

/-- A step that gives an RWE_WRITE in an open epoch leaves the epoch open, and everything but the shadows and staged halves as it was. -/
theorem step_rweWrite {o : Nat} {v : W64} {rest : List Instr} (hp : s.pending = .RWE_WRITE o 4 v :: rest) :
    ∃ sh st, step s = .next { s.withShadows sh st with pending := rest } := by
  obtain ⟨sh, st, h⟩ := State.rweRow_shadows (s := { s with pending := rest }) hopen hpend o v
  refine ⟨sh, st, ?_⟩
  rw [step_cons hp]
  exact (congrArg (answer true { s with pending := rest }) h).trans rfl

end

/-- Settles O60, by induction on the writes of the epoch: each leaves every register in force as it was, so the epoch open. -/
theorem anAbandonedEpochLeavesNoTrace : Obligations.AnAbandonedEpochLeavesNoTrace := by
  unfold Obligations.AnAbandonedEpochLeavesNoTrace
  intro s ws rest hreach hopen hpend hp
  induction ws generalizing s with
  | nil =>
    have habandon := State.abandonEpoch_open (s := { s with pending := rest }) hopen hpend
    refine ⟨_, run_step ((step_cons hp).trans (answer_reached (s := { s with pending := rest }) hreach.2 rfl _ habandon)) 0,
      rfl, rfl, ?_, fun r hr => ?_, rfl⟩
    · exact (State.rget_rput _ .epochCtrl 0 0 0 _).trans (if_pos rfl)
    · exact (State.rget_rput _ .epochCtrl 0 0 0 r).trans (if_neg hr)
  | cons w ws ih =>
    obtain ⟨sh, st, hstep⟩ := step_rweWrite hopen hpend hp
    obtain ⟨t, hrun, hrest, hsh, hctrl, hregs, hframe⟩ := ih { s.withShadows sh st with pending := _ } hreach hopen hpend rfl
    exact ⟨t, (run_step hstep _).trans hrun, hrest, hsh, hctrl, hregs, hframe⟩

end Sys2Proof.Machine

/-! Register accesses (R7, R8, R10, R65, R343, R367, R368): what an access of each size and alignment does at each kind of location; then
O26 to O28. -/

namespace Sys2Proof.Machine

/-! ### Accesses that reach BAR0 -/

section
variable {s : State} {fn o : Nat} (hfn : fn ≤ 64) (hup : s.barUp fn = true) (hthr : s.through fn o = true)
include hfn hup hthr

theorem leadsTo_bar0Write {size : Nat} {v : W64} {h : HostData} {t : State} (e : s.busWrite fn o size v h = t) :
    LeadsTo (.REGISTER_WRITE fn (.bar0 o size) v h) s t :=
  answer_to (decide_eq_true hfn) (by simp [State.registerWrite, State.bar0Write, hup, hthr, e])

theorem leadsTo_bar0Read {size : Nat} {v : W64} {t : State} (e : s.busRead fn o size = (v, t)) :
    LeadsTo (.REGISTER_READ_LATCH fn (.bar0 o) size) s (t.send (.readData fn (toBytes size v.toNat) false)) :=
  answer_to (decide_eq_true hfn) (by simp [State.registerRead, State.bar0Read, hup, hthr, e])

end

/-! ### Reads (R10) -/

/-- A register whose value a read answers as it stands: CHAN_STATE and WINDUP show other state beside it. -/
def Reg.plain (r : Reg) : Prop := r.n ≠ .chanState ∧ r.n ≠ .windup

section
variable {s : State} {fn o size : Nat}

theorem State.locVal_reg {r : Reg} (hr : r.plain) (w : Bool) : s.locVal (.reg r w) = (s.rget r, s) := by
  simp [State.locVal, hr.1, hr.2]

theorem State.busRead_other (h : (size ≠ 4 ∧ size ≠ 8) ∨ o % size ≠ 0) : s.busRead fn o size = (0, s) :=
  if_pos h

theorem State.busRead_word (h : o % 4 = 0) :
    s.busRead fn o 4 = (w64 (s.readWord fn o).1.toNat, (s.readWord fn o).2) := by
  rw [State.busRead, if_neg (by omega), if_pos rfl]

theorem State.readWord_narrow (h : (s.locAt fn (o / 8 * 8)).wide = false) :
    s.readWord fn o = (w32 (s.locVal (s.locAt fn o)).1.toNat, (s.locVal (s.locAt fn o)).2) := by
  simp [State.readWord, h]

theorem w64_toNat_w32 (v : W32) : (w64 v.toNat).toNat = v.toNat := by
  simp only [w64, BitVec.toNat_ofNat]
  omega

end

/-! ### Writes (R7, R10) -/

section
variable {s : State} {fn o size : Nat} {v : W64} {h : HostData}

theorem State.busWrite_other (hs : (size ≠ 4 ∧ size ≠ 8) ∨ o % size ≠ 0) : s.busWrite fn o size v h = s :=
  if_pos hs

theorem State.busWrite_word (ho : o % 4 = 0) : s.busWrite fn o 4 v h = s.writeWord fn o (v.toNat % 2 ^ 32) h := by
  rw [State.busWrite, if_neg (by omega), if_pos rfl]

theorem State.writeWord_narrow {w : Nat} (hn : (s.locAt fn (o / 8 * 8)).wide = false) :
    s.writeWord fn o w h = s.locWrite fn (s.locAt fn o) w h := by
  simp [State.writeWord, hn]

/-- A write of an aligned 64-bit location takes effect whole, and its staged halves go (R10). -/
theorem State.busWrite_wide (ho : o % 8 = 0) {l : Loc} (hl : s.locAt fn o = l) (hw : l.wide = true) :
    s.busWrite fn o 8 v h = ({ s with rf := s.rf.unstage fn l } : State).locWrite fn l v.toNat h := by
  subst hl
  rw [State.busWrite, if_neg (by omega), if_neg (by decide)]
  simp [hw]

end

/-- A 32-bit write of a narrow location of BAR0. -/
theorem leadsTo_narrowWrite {s : State} {fn o : Nat} {l : Loc} {v : W64} {h : HostData} (hfn : fn ≤ 64) (hn : s.narrowAt fn o l) {t : State}
    (e : s.locWrite fn l (v.toNat % 2 ^ 32) h = t) : LeadsTo (.REGISTER_WRITE fn (.bar0 o 4) v h) s t := by
  obtain ⟨hup, hthr, ho, hw, hl⟩ := hn
  refine leadsTo_bar0Write hfn hup hthr ?_
  rw [State.busWrite_word ho, State.writeWord_narrow hw, hl, e]

/-! ### The halves of a 64-bit register -/

section
variable {s : State} {fn o : Nat} {r : Reg} (hfn : fn ≤ 64) (hat : s.wideAt fn o (.reg r true))
include hat

theorem State.wideAt_base : s.locAt fn (o / 8 * 8) = .reg r true := by
  obtain ⟨-, -, ho, hl⟩ := hat
  rw [Nat.div_mul_cancel (Nat.dvd_of_mod_eq_zero ho), hl]

theorem State.wideAt_upper : (o + 4) % 8 = 4 ∧ s.locAt fn ((o + 4) / 8 * 8) = .reg r true := by
  obtain ⟨-, -, ho, hl⟩ := hat
  have hbase : (o + 4) / 8 * 8 = o := by omega
  exact ⟨by omega, by rw [hbase, hl]⟩

/-- A read of the lower half answers it and latches the upper. -/
theorem State.readWord_lower (hr : r.plain) :
    s.readWord fn o = (w32 (s.rget r).toNat,
      { s with rf := s.rf.latch (.inl ⟨fn, r, false⟩) (some (w32 ((s.rget r).toNat / 2 ^ 32))) }) := by
  have ho : o % 8 = 0 := hat.2.2.1
  rw [State.readWord, State.wideAt_base hat]
  simp [Loc.wide, ho, State.locVal_reg hr, Loc.half]

/-- A read of the upper half answers what is latched for it. -/
theorem State.readWord_upper {w : W32} (hlatch : s.rf.latch? (.inl ⟨fn, r, false⟩) = some w) :
    s.readWord fn (o + 4) = (w, { s with rf := s.rf.latch (.inl ⟨fn, r, false⟩) none }) := by
  obtain ⟨ho, hl⟩ := State.wideAt_upper hat
  rw [State.readWord, hl]
  simp [Loc.wide, ho, hlatch, Loc.half]

theorem State.writeWord_lower (w : Nat) (h : HostData) : s.writeWord fn o w h = s.halfWrite fn (.reg r true) false w h := by
  have ho : o % 8 = 0 := hat.2.2.1
  rw [State.writeWord, State.wideAt_base hat]
  simp [Loc.wide, ho]

theorem State.writeWord_upper (w : Nat) (h : HostData) : s.writeWord fn (o + 4) w h = s.halfWrite fn (.reg r true) true w h := by
  obtain ⟨ho, hl⟩ := State.wideAt_upper hat
  rw [State.writeWord, hl]
  simp [Loc.wide, ho]

include hfn

theorem leadsTo_lowerWrite {v : W64} {h : HostData} {t : State} (e : s.halfWrite fn (.reg r true) false (v.toNat % 2 ^ 32) h = t) :
    LeadsTo (.REGISTER_WRITE fn (.bar0 o 4) v h) s t := by
  have ho : o % 8 = 0 := hat.2.2.1
  refine leadsTo_bar0Write hfn hat.1 hat.2.1 ?_
  rw [State.busWrite_word (by omega), State.writeWord_lower hat, e]

theorem leadsTo_upperWrite {v : W64} {h : HostData} {t : State} (hthr : s.through fn (o + 4) = true)
    (e : s.halfWrite fn (.reg r true) true (v.toNat % 2 ^ 32) h = t) : LeadsTo (.REGISTER_WRITE fn (.bar0 (o + 4) 4) v h) s t := by
  have ho : o % 8 = 0 := hat.2.2.1
  refine leadsTo_bar0Write hfn hat.1 hthr ?_
  rw [State.busWrite_word (by omega), State.writeWord_upper hat, e]

theorem leadsTo_lowerRead (hr : r.plain) :
    LeadsTo (.REGISTER_READ_LATCH fn (.bar0 o) 4) s
      (({ s with rf := s.rf.latch (.inl ⟨fn, r, false⟩) (some (w32 ((s.rget r).toNat / 2 ^ 32))) } : State).send
        (.readData fn (toBytes 4 ((s.rget r).toNat % 2 ^ 32)) false)) := by
  have ho : o % 8 = 0 := hat.2.2.1
  have hread : s.busRead fn o 4 = _ := State.busRead_word (by omega)
  rw [State.readWord_lower hat hr] at hread
  have := leadsTo_bar0Read hfn hat.1 hat.2.1 hread
  rwa [w64_toNat_w32, w32, BitVec.toNat_ofNat] at this

theorem leadsTo_upperRead {w : W32} (hthr : s.through fn (o + 4) = true) (hlatch : s.rf.latch? (.inl ⟨fn, r, false⟩) = some w) :
    LeadsTo (.REGISTER_READ_LATCH fn (.bar0 (o + 4)) 4) s
      (({ s with rf := s.rf.latch (.inl ⟨fn, r, false⟩) none } : State).send (.readData fn (toBytes 4 w.toNat) false)) := by
  have ho : o % 8 = 0 := hat.2.2.1
  have hread : s.busRead fn (o + 4) 4 = _ := State.busRead_word (by omega)
  rw [State.readWord_upper hat hlatch] at hread
  have := leadsTo_bar0Read hfn hat.1 hthr hread
  rwa [w64_toNat_w32] at this

end

/-- Settles O28: the read of the lower half latches what the read of the upper half then answers. -/
theorem upperHalvesAreReadFromTheirLatch : Obligations.UpperHalvesAreReadFromTheirLatch := by
  unfold Obligations.UpperHalvesAreReadFromTheirLatch
  intro s u fn o r hfn hs hu hthr hc hw
  refine ⟨_, leadsTo_lowerRead hfn hs ⟨hc, hw⟩, rfl, rfl, fun hl => ⟨_, leadsTo_upperRead hfn hu hthr (w := w32 ((s.rget r).toNat / 2 ^ 32)) ?_, ?_⟩⟩
  · rw [RegFile.latch?, hl]
    simp [RegFile.latch, assoc?, assocSet, Tab.look]
  · have hlt : (s.rget r).toNat / 2 ^ 32 < 2 ^ 32 := by have := (s.rget r).isLt; omega
    rw [State.send_io, w32, BitVec.toNat_ofNat, Nat.mod_eq_of_lt hlt]

/-! ### Offsets that hold no register (R367) -/

/-- An access finds nothing at its offset: no register is there, or the access has another size or alignment than registers have. -/
def State.nothingAt (s : State) (fn o size : Nat) : Prop :=
  (size = 4 ∧ o % 4 = 0 ∧ (s.locAt fn (o / 8 * 8)).wide = false ∧ s.locAt fn o = .empty) ∨
    (size = 8 ∧ o % 8 = 0 ∧ s.locAt fn o = .empty ∧ s.locAt fn (o + 4) = .empty) ∨ (size ≠ 4 ∧ size ≠ 8) ∨ o % size ≠ 0

section
variable {s : State} {fn o : Nat}

theorem State.readWord_empty (hw : (s.locAt fn (o / 8 * 8)).wide = false) (hl : s.locAt fn o = .empty) : s.readWord fn o = (0, s) := by
  rw [State.readWord_narrow hw, hl]
  rfl

theorem State.writeWord_empty (hw : (s.locAt fn (o / 8 * 8)).wide = false) (hl : s.locAt fn o = .empty) (v : Nat) (h : HostData) :
    s.writeWord fn o v h = s := by
  rw [State.writeWord_narrow hw, hl]
  rfl

/-- Both words of an aligned double word whose first holds no register lie beside no 64-bit register. -/
theorem State.base_of_aligned (ho : o % 8 = 0) : o / 8 * 8 = o ∧ (o + 4) / 8 * 8 = o := by omega

theorem State.busWrite_nothing {size : Nat} (hn : s.nothingAt fn o size) (v : W64) (h : HostData) : s.busWrite fn o size v h = s := by
  rcases hn with ⟨rfl, ho, hw, hl⟩ | ⟨rfl, ho, hl, hl4⟩ | hother
  · rw [State.busWrite_word ho, State.writeWord_empty hw hl]
  · obtain ⟨hb, hb4⟩ := State.base_of_aligned ho
    have hw : (Loc.empty).wide = false := rfl
    simp only [State.busWrite, hl, hw]
    rw [State.writeWord_empty (by rw [hb, hl]; rfl) hl, State.writeWord_empty (by rw [hb4, hl]; rfl) hl4]
    simp
  · exact State.busWrite_other hother

theorem State.busRead_nothing {size : Nat} (hn : s.nothingAt fn o size) : s.busRead fn o size = (0, s) := by
  rcases hn with ⟨rfl, ho, hw, hl⟩ | ⟨rfl, ho, hl, hl4⟩ | hother
  · rw [State.busRead_word ho, State.readWord_empty hw hl]
    rfl
  · obtain ⟨hb, hb4⟩ := State.base_of_aligned ho
    have hw : (Loc.empty).wide = false := rfl
    simp only [State.busRead, hl, hw]
    rw [State.readWord_empty (by rw [hb, hl]; rfl) hl]
    dsimp only
    rw [State.readWord_empty (by rw [hb4, hl]; rfl) hl4]
    simp [ho, w64]
  · exact State.busRead_other hother

end

/-- Settles O27: such an access reads zero and writes nothing. -/
theorem emptyOffsetsReadZeroAndTakeNoWrite : Obligations.EmptyOffsetsReadZeroAndTakeNoWrite := by
  unfold Obligations.EmptyOffsetsReadZeroAndTakeNoWrite
  intro s fn o size v h hfn hup hthr hn
  exact ⟨leadsTo_bar0Write hfn hup hthr (State.busWrite_nothing hn v h),
    _, leadsTo_bar0Read hfn hup hthr (State.busRead_nothing hn), rfl⟩

/-! ### What a whole write of a register does (R7, R65, R368) -/

section
variable {s : State} {fn : Nat} {r : Reg} {w m : Nat} {h : HostData}

theorem State.inTurn_vf {k : Reg ⊕ (Nat × Nat)} (hfn : fn ≠ 0) (hpf : s.pfWrote? k = none) (put : State → Nat → Nat → State) :
    s.inTurn fn k w put = put s fn w := by
  simp [State.inTurn, hfn, hpf]

theorem State.inTurn_pf (k : Reg ⊕ (Nat × Nat)) (put : State → Nat → Nat → State) :
    s.inTurn 0 k w put = (put s 0 w).notePf k w := if_pos rfl

theorem State.inTurn_again {k : Reg ⊕ (Nat × Nat)} {p : Nat} (hfn : fn ≠ 0) (hpf : s.pfWrote? k = some p)
    (put : State → Nat → Nat → State) : s.inTurn fn k w put = put (put s fn w) 0 p := by
  simp [State.inTurn, hfn, hpf]

theorem State.regWrite_direct (hd : s.vfShared r = false ∨ fn ≠ 0 ∧ s.pfWrote? (.inl r) = none) :
    s.regWrite fn r w h = s.regPut fn r w h := by
  cases hv : s.vfShared r with
  | false => rw [State.regWrite, hv, if_neg (by decide)]
  | true =>
    obtain ⟨hfn, hpf⟩ := hd.resolve_left (by simp [hv])
    rw [State.regWrite, if_pos hv, State.inTurn_vf hfn hpf]

theorem State.regPut_ro (hw : wrOf r.n = .ro) : s.regPut fn r w h = s := by rw [State.regPut, hw]

theorem State.regPut_rw (hw : wrOf r.n = .rw m) : s.regPut fn r w h = s.storeField r m w := by rw [State.regPut, hw]

theorem State.regPut_act (hw : wrOf r.n = .act) : s.regPut fn r w h = s.actWrite fn r w h := by rw [State.regPut, hw]

theorem State.regPut_rwe_vf (hw : wrOf r.n = .rwe m) (hfn : fn ≠ 0) : s.regPut fn r w h = s := by
  rw [State.regPut, hw]
  exact if_neg hfn

theorem State.regPut_rwe_pf (hw : wrOf r.n = .rwe m) : s.regPut 0 r w h = s.rweWrite r m w := by
  rw [State.regPut, hw]
  exact if_pos rfl

theorem State.rweWrite_open (hopen : s.epochOpen = true) (hpend : s.epochPending = false) :
    s.rweWrite r m w =
      { s with
        rf := { s.rf with shadow := assocSet s.rf.shadow r (w64 ((s.shadowOf r).toNat - ((s.shadowOf r).toNat &&& m) + (w &&& m))) } } := by
  simp [State.rweWrite, hopen, hpend]

theorem State.rweWrite_discarded (hno : s.epochOpen = true → s.epochPending = true) : s.rweWrite r m w = s.radd32 .epochDiscards 0 0 1 := by
  refine if_neg fun hyes => ?_
  rw [Bool.and_eq_true] at hyes
  simp [hno hyes.1] at hyes

/-- Fields that the mask names are stored; a vector moderator also remembers what governed until then (R87). -/
theorem State.storeField_plain (hn : r.n ≠ .vecMod) : s.storeField r m w = s.rput r.n r.i r.j (maskPut (s.rget r).toNat m w) :=
  if_neg hn

theorem State.storeField_vecMod (hn : r.n = .vecMod) :
    s.storeField r m w = (s.rput .vecMod r.i r.j (maskPut (s.rget r).toNat m w)).updVec r.i r.j fun x => x.noteOld s.now (s.vecMod r.i r.j) := by
  rw [State.storeField, if_pos hn, hn]

/-- The lower half of a write is staged (R10). -/
theorem State.halfWrite_lower (hro : wrOf r.n ≠ .ro) (hrwe : isRwe r.n = true → s.epochOpen = true ∧ s.epochPending = false) :
    s.halfWrite fn (.reg r true) false w h =
      { s with rf := { s.rf with staged := assocSet s.rf.staged ⟨fn, r, isRwe r.n⟩ (w32 w) } } := by
  cases hr : isRwe r.n with
  | false => simp [State.halfWrite, hr, hro]
  | true => simp [State.halfWrite, hr, hro, hrwe hr]

/-- The upper half takes the staged lower half, or the one that stands, and the write takes effect whole (R10). -/
theorem State.halfWrite_upper (hro : wrOf r.n ≠ .ro) (hrwe : isRwe r.n = true → s.epochOpen = true ∧ s.epochPending = false) :
    s.halfWrite fn (.reg r true) true w h =
      ({ s with rf := { s.rf with staged := Tab.drop ⟨fn, r, isRwe r.n⟩ s.rf.staged } } : State).regWrite fn r
        (((assoc? s.rf.staged ⟨fn, r, isRwe r.n⟩).getD (w32 (if isRwe r.n then s.shadowOf r else s.rget r).toNat)).toNat + w * 2 ^ 32) h := by
  cases hr : isRwe r.n with
  | false => simp [State.halfWrite, hr, hro]
  | true => simp [State.halfWrite, hr, hro, hrwe hr]

theorem isRwe_of_ro (hw : wrOf r.n = .ro) : isRwe r.n = false := by simp [isRwe, hw]

theorem State.halfWrite_ro (hw : wrOf r.n = .ro) (b : Bool) : s.halfWrite fn (.reg r true) b w h = s := by
  simp [State.halfWrite, isRwe_of_ro hw, hw]

theorem State.queueWrite_direct {q k : Nat} (hd : s.owner q = 0 ∨ fn ≠ 0 ∧ s.pfWrote? (.inr (q, k)) = none) :
    s.queueWrite fn q k w = s.queuePut fn q k w := by
  by_cases ho : s.owner q = 0
  · exact if_pos ho
  · obtain ⟨hfn, hpf⟩ := hd.resolve_left ho
    rw [State.queueWrite, if_neg ho, State.inTurn_vf hfn hpf]

end

/-! ### Configuration requests (R343, R355, R356, R383) -/

section
variable {s : State} {fn : Nat} {v : W64} {h : HostData} (hfn : fn ≤ 64)
include hfn

theorem leadsTo_cfgWrite (hup : s.cfgUp fn = true) {g : RegTarget} (hg : ∀ o n, g ≠ .bar0 o n) {t : State}
    (e : s.cfgWrite fn g (v.toNat % 2 ^ 32) = t) : LeadsTo (.REGISTER_WRITE fn g v h) s t := by
  refine answer_to (decide_eq_true hfn) ?_
  cases g with
  | bar0 o n => exact absurd rfl (hg o n)
  | command | msixControl | devControl2 | sriovControl | ptmControl => exact (if_pos hup).trans e

theorem leadsTo_cfgRead (hup : s.cfgUp fn = true) {k size : Nat} {w : W32} (hw : s.cfgWord fn k = (w, s)) :
    LeadsTo (.REGISTER_READ_LATCH fn (.config k) size) s (s.send (.readData fn (toBytes 4 w.toNat) false)) :=
  answer_to (decide_eq_true hfn) (by simp [State.registerRead, State.cfgRead, hup, hw])

end

section
variable {s : State} {fn n : Nat}

theorem State.cfgWrite_msixControl_masks (h : (s.cp.fns.get fn).msixMask = false ∨ bit n 14 = true) :
    s.cfgWrite fn .msixControl n = s.updFn fn fun f => { f with msixEn := bit n 15, msixMask := bit n 14 } := by
  rw [State.cfgWrite]
  exact if_neg (by rcases h with h | h <;> simp [h])

/-- Clearing the function mask evaluates every vector of the function (R87). -/
theorem State.cfgWrite_msixControl_unmasks (hmask : (s.cp.fns.get fn).msixMask = true) (h : bit n 14 = false) :
    s.cfgWrite fn .msixControl n = (List.range (vectors fn)).foldl (fun t k => t.unmask fn k)
      (s.updFn fn fun f => { f with msixEn := bit n 15, msixMask := bit n 14 }) := by
  rw [State.cfgWrite]
  exact if_pos (by simp [hmask, h])

theorem State.cfgWrite_sriovControl :
    s.cfgWrite 0 .sriovControl n = if bit n 0 then s.withWin fun w => { w with vfEnable := true } else s.vfEnableClear := by
  simp [State.cfgWrite]

theorem State.cfgWrite_ptmControl : s.cfgWrite 0 .ptmControl n = s.withWin fun w => { w with ptmEnable := bit n 0 } := by
  simp [State.cfgWrite]

end

/-! ### The clauses of O26 -/

section
variable {s : State} {fn o : Nat} {r : Reg} {v : W64} {h : HostData} (hfn : fn ≤ 64)
include hfn

theorem narrowRegister_accesses (hat : s.narrowAt fn o (.reg r false)) :
    LeadsTo (.REGISTER_WRITE fn (.bar0 o 4) v h) s (s.regWrite fn r (v.toNat % 2 ^ 32) h) ∧
      (r.n ≠ .chanState → r.n ≠ .windup →
        LeadsTo (.REGISTER_READ_LATCH fn (.bar0 o) 4) s (s.send (.readData fn (toBytes 4 ((s.rget r).toNat % 2 ^ 32)) false))) := by
  refine ⟨leadsTo_narrowWrite hfn hat rfl, fun hc hw => ?_⟩
  obtain ⟨hup, hthr, ho, hn, hl⟩ := hat
  have hread := State.busRead_word (s := s) (fn := fn) ho
  rw [State.readWord_narrow hn, hl, State.locVal_reg ⟨hc, hw⟩] at hread
  have := leadsTo_bar0Read hfn hup hthr hread
  rwa [w64_toNat_w32, w32, BitVec.toNat_ofNat] at this

/-- Where BAR accesses do not reach the registers, outside the SAFE block, a write is lost and a read answers zeros (R343). -/
theorem unreached_accesses (size : Nat) (hup : s.barUp fn = false) (hsafe : inSafe fn o = false) :
    LeadsTo (.REGISTER_WRITE fn (.bar0 o size) v h) s s ∧
      (s.through fn o = true →
        LeadsTo (.REGISTER_READ_LATCH fn (.bar0 o) size) s (s.send (.readData fn (List.replicate size 0) false))) :=
  ⟨answer_to (decide_eq_true hfn) (by simp [State.registerWrite, State.bar0Write, hup, hsafe]),
    fun hthr => answer_to (decide_eq_true hfn) (by simp [State.registerRead, State.bar0Read, hup, hsafe, hthr])⟩

/-- An access that does not come through leaves the state as it is (R17). -/
theorem held_accesses (size : Nat) (hthr : s.through fn o = false) :
    LeadsTo (.REGISTER_WRITE fn (.bar0 o size) v h) s s ∧ LeadsTo (.REGISTER_READ_LATCH fn (.bar0 o) size) s s :=
  ⟨answer_to (decide_eq_true hfn) (by simp [State.registerWrite, State.bar0Write, hthr]),
    answer_to (decide_eq_true hfn) (by simp [State.registerRead, State.bar0Read, hthr])⟩

/-- After a conventional reset, configuration requests are to be tried again (R343). -/
theorem config_retries (hready : s.win.ready = false) (hrrs : s.win.rrs = true) (hfail : s.rbit .windup 3 = false)
    (hheld : s.win.held = false) (hclk : s.runs 28) :
    LeadsTo (.REGISTER_WRITE fn .command v h) s (s.send (.retry fn)) ∧
      ∀ k n, LeadsTo (.REGISTER_READ_LATCH fn (.config k) n) s (s.send (.retry fn)) := by
  have hup : s.cfgUp fn = false := by simp [State.cfgUp, hready, hrrs, hfail]
  have hretry : s.cfgRetry fn = s.send (.retry fn) := by simp [State.cfgRetry, hready, hrrs, hfail, hheld, show s.clockOn 28 = true from hclk]
  exact ⟨answer_to (decide_eq_true hfn) (by simp [State.registerWrite, hup, hretry]),
    fun k n => answer_to (decide_eq_true hfn) (by simp [State.registerRead, State.cfgRead, hup, hretry])⟩

end

/-- The words of the identity (R1, R352). -/
theorem configIdentity_bytes (fn : Nat) :
    toBytes 4 (0x12000010 : W32).toNat = [0x10, 0x00, 0x00, 0x12] ∧
      toBytes 4 (if fn = 0 then 0x16001F3C else 0xFFFFFFFF : W32).toNat =
        (if fn = 0 then [0x3C, 0x1F, 0x00, 0x16] else [0xFF, 0xFF, 0xFF, 0xFF]) := by
  refine ⟨by decide, ?_⟩
  split <;> decide

/-- Settles O26: each clause is the access lemma of its kind of location. -/
theorem registerAccessesAct : Obligations.RegisterAccessesAct := by
  unfold Obligations.RegisterAccessesAct
  intro s fn o r v w h hfn hw
  subst hw
  refine ⟨fun hat => narrowRegister_accesses hfn hat, fun hat => ⟨?whole, ?halves, ?readOnly⟩,
    ⟨State.regWrite_direct, ?pfShared, ?vfShared, State.regPut_ro, ?rw, ?vecMod, ?rwe, State.regPut_act⟩,
    fun l hat => ⟨?deviceReset, ?schedCmd, ?svn, ?msix, ?queue⟩, ?wideQueue,
    fun q k => ⟨State.queueWrite_direct, ?pfQueue, ?vfQueue⟩, fun hup => ?config, config_retries hfn,
    fun size hup hsafe => unreached_accesses hfn size hup hsafe, fun size hthr => held_accesses hfn size hthr,
    fun size hclk => ?bar2⟩
  case whole =>
    exact leadsTo_bar0Write hfn hat.1 hat.2.1 (State.busWrite_wide hat.2.2.1 hat.2.2.2 rfl)
  case halves =>
    rintro k u lo rfl hro hrwe rfl rfl
    exact ⟨leadsTo_lowerWrite hfn hat (State.halfWrite_lower hro hrwe),
      fun hthr => leadsTo_upperWrite hfn hat hthr (State.halfWrite_upper hro hrwe)⟩
  case readOnly => exact fun hro => leadsTo_lowerWrite hfn hat (State.halfWrite_ro hro false)
  case pfShared => exact fun hv => (if_pos hv).trans (State.inTurn_pf _ _)
  case vfShared => exact fun p hv h0 hp => (if_pos hv).trans (State.inTurn_again h0 hp _)
  case rw => exact fun m hm hn => (State.regPut_rw hm).trans (State.storeField_plain hn)
  case vecMod => exact fun m hm hn => (State.regPut_rw hm).trans (State.storeField_vecMod hn)
  case rwe =>
    exact fun m hm => ⟨State.regPut_rwe_vf hm, fun ho hp => (State.regPut_rwe_pf hm).trans (State.rweWrite_open ho hp),
      fun hno => (State.regPut_rwe_pf hm).trans (State.rweWrite_discarded hno)⟩
  case deviceReset => exact fun hl => leadsTo_narrowWrite hfn (hl ▸ hat) rfl
  case schedCmd => exact fun p hl => leadsTo_narrowWrite hfn (hl ▸ hat) rfl
  case svn => exact fun hl => leadsTo_narrowWrite hfn (hl ▸ hat) rfl
  case msix => exact fun f k n hl => leadsTo_narrowWrite hfn (hl ▸ hat) rfl
  case queue => exact fun q k hl => leadsTo_narrowWrite hfn (hl ▸ hat) rfl
  case wideQueue =>
    exact fun q k hat hk => leadsTo_bar0Write hfn hat.1 hat.2.1
      (State.busWrite_wide hat.2.2.1 hat.2.2.2 (by rcases hk with rfl | rfl <;> rfl))
  case pfQueue => exact fun ho => (if_neg ho).trans (State.inTurn_pf _ _)
  case vfQueue => exact fun p ho h0 hp => (if_neg ho).trans (State.inTurn_again h0 hp _)
  case config =>
    have write {g : RegTarget} {t : State} (hg : ∀ o n, g ≠ .bar0 o n) (e : s.cfgWrite fn g (v.toNat % 2 ^ 32) = t) :
        LeadsTo (.REGISTER_WRITE fn g v h) s t := leadsTo_cfgWrite hfn hup hg e
    refine ⟨write nofun rfl, ?_, write nofun rfl, ?_, ?_, ?_, ?_, ?_, ?_⟩
    · rintro u rfl
      exact ⟨fun hm => write nofun (State.cfgWrite_msixControl_masks hm),
        fun hm hb => write nofun (State.cfgWrite_msixControl_unmasks hm hb)⟩
    · rintro rfl hb
      exact write nofun (State.cfgWrite_sriovControl.trans (if_pos hb))
    · rintro rfl hb
      exact write nofun (State.cfgWrite_sriovControl.trans (if_neg (Bool.eq_false_iff.mp hb)))
    · rintro rfl
      exact write nofun State.cfgWrite_ptmControl
    · exact fun h0 => ⟨write nofun (if_pos h0), write nofun (if_pos h0)⟩
    · have := leadsTo_cfgRead (size := 4) (k := 8) hfn hup rfl
      rwa [(configIdentity_bytes fn).1] at this
    · have := leadsTo_cfgRead (size := 4) (k := 0) hfn hup rfl
      rwa [(configIdentity_bytes fn).2] at this
  case bar2 => exact answer_to (decide_eq_true hfn) (if_pos hclk)

end Sys2Proof.Machine


/-! The choice of a tile by its step's key (R93, R97), and the refill of the accounts at a period boundary (R78): O57, O56. -/

namespace Sys2Proof.Machine

/-! ### Keys are in order (R93) -/

theorem keyLt_iff (a b : Nat × Nat × Nat) :
    keyLt a b = true ↔ a.1 < b.1 ∨ a.1 = b.1 ∧ (a.2.1 < b.2.1 ∨ a.2.1 = b.2.1 ∧ a.2.2 < b.2.2) := by
  simp [keyLt]

theorem keyLt_eq_false_iff (a b : Nat × Nat × Nat) :
    keyLt a b = false ↔ ¬(a.1 < b.1 ∨ a.1 = b.1 ∧ (a.2.1 < b.2.1 ∨ a.2.1 = b.2.1 ∧ a.2.2 < b.2.2)) := by
  rw [← keyLt_iff, Bool.not_eq_true]

theorem keyLt_irrefl (a : Nat × Nat × Nat) : keyLt a a = false := by
  rw [keyLt_eq_false_iff]
  omega

theorem keyLt_asymm {a b : Nat × Nat × Nat} (h : keyLt a b = true) : keyLt b a = false := by
  rw [keyLt_iff] at h
  rw [keyLt_eq_false_iff]
  omega

/-- A key that does not come before `b`, where `b` does not come before `c`, does not come before `c`. -/
theorem keyLt_false_trans {a b c : Nat × Nat × Nat} (hab : keyLt a b = false) (hbc : keyLt b c = false) : keyLt a c = false := by
  rw [keyLt_eq_false_iff] at *
  omega

/-! ### The lowest of a list of candidates (R97) -/

/-- The lower of two candidates, the first where their keys are the same. -/
def State.lower (s : State) (m d : Ctx × Nat) : Ctx × Nat := if keyLt (s.keyOf d.1) (s.keyOf m.1) then d else m

theorem State.lowest_cons (s : State) (c : Ctx × Nat) (l : List (Ctx × Nat)) : s.lowest (c :: l) = some (l.foldl s.lower c) := rfl

theorem State.lower_cases (s : State) (m d : Ctx × Nat) : s.lower m d = m ∨ s.lower m d = d := by
  unfold State.lower
  split
  · exact .inr rfl
  · exact .inl rfl

theorem State.not_before_lower (s : State) (m d : Ctx × Nat) :
    keyLt (s.keyOf m.1) (s.keyOf (s.lower m d).1) = false ∧ keyLt (s.keyOf d.1) (s.keyOf (s.lower m d).1) = false := by
  unfold State.lower
  split
  · next h => exact ⟨keyLt_asymm h, keyLt_irrefl _⟩
  · next h => exact ⟨keyLt_irrefl _, Bool.not_eq_true _ ▸ h⟩

/-- What a run over the candidates ends with is one of them or where it began, and none of them comes before it. -/
theorem State.foldl_lower (s : State) (l : List (Ctx × Nat)) :
    ∀ c, l.foldl s.lower c ∈ c :: l ∧ ∀ d ∈ c :: l, keyLt (s.keyOf d.1) (s.keyOf (l.foldl s.lower c).1) = false := by
  induction l with
  | nil =>
    intro c
    refine ⟨List.mem_singleton_self c, fun d hd => ?_⟩
    rw [List.mem_singleton.mp hd]
    exact keyLt_irrefl _
  | cons b l ih =>
    intro c
    obtain ⟨hmem, hlow⟩ := ih (s.lower c b)
    obtain ⟨hc, hb⟩ := s.not_before_lower c b
    have hbest := hlow _ List.mem_cons_self
    refine ⟨?member, fun d hd => ?lowest⟩
    case member =>
      rcases List.mem_cons.mp hmem with heq | hl
      · rw [List.foldl_cons, heq]
        rcases s.lower_cases c b with h | h <;> simp [h]
      · exact List.mem_cons_of_mem _ (List.mem_cons_of_mem _ hl)
    case lowest =>
      rcases List.mem_cons.mp hd with rfl | hd
      · exact keyLt_false_trans hc hbest
      · rcases List.mem_cons.mp hd with rfl | hd
        · exact keyLt_false_trans hb hbest
        · exact hlow d (List.mem_cons_of_mem _ hd)

/-- Settles O57: by the run over the candidates. -/
theorem theLowestKeyIsChosen : Obligations.TheLowestKeyIsChosen := by
  unfold Obligations.TheLowestKeyIsChosen
  rintro s (_ | ⟨b, l⟩)
  · exact ⟨fun h => absurd rfl h, nofun⟩
  · refine ⟨fun _ => ⟨_, s.lowest_cons b l⟩, fun c hc => ?_⟩
    obtain rfl : l.foldl s.lower b = c := Option.some.inj hc
    exact s.foldl_lower l b

/-! ### The refill of one account (R78) -/

theorem sat_le (m x : Nat) : sat m x ≤ m := by
  unfold sat
  split <;> omega

theorem fld_lt (v lo n : Nat) : fld v lo n < 2 ^ n := Nat.mod_lt _ (Nat.two_pow_pos n)

/-- What an account has left at a boundary, of a budget `B` (R78). -/
def State.carry (s : State) (a : Acct) : Int := if a = .bg 0 then 0 else min (max (s.balance a) 0) (s.budget a)

theorem State.refill_eq (s : State) (a : Acct) : s.refill a = s.rset a.bal (BitVec.ofInt 64 (s.budget a + s.carry a)) := rfl

/-- No budget is near the end of a balance's 64 bits. -/
theorem State.budget_lt (s : State) (a : Acct) : s.budget a < 2 ^ 45 := by
  have array (w x : Nat) (hw : w ≤ 6400) : sat w x * 1000 < 2 ^ 45 := by
    have := sat_le w x
    omega
  have stack (v : Nat) : fld v 0 32 * 4096 < 2 ^ 45 := by
    have := fld_lt v 0 32
    omega
  have link (v : Nat) : fld v 0 16 * 4096 < 2 ^ 45 := by
    have := fld_lt v 0 16
    omega
  cases a with
  | ten t u =>
    simp only [State.budget]
    split_ifs
    · exact array _ _ (by omega)
    · exact stack _
    · exact link _
    · exact array _ _ (by omega)
  | part p u =>
    simp only [State.budget]
    split_ifs
    · exact array _ _ (by omega)
    · exact stack _
    · exact link _
  | bg k =>
    simp only [State.budget]
    split_ifs
    · exact array _ _ (by omega)
    · exact stack _
    · exact link _
    · exact stack _

theorem State.carry_nonneg (s : State) (a : Acct) : 0 ≤ s.carry a := by
  unfold State.carry
  split <;> omega

theorem State.carry_le (s : State) (a : Acct) : s.carry a ≤ s.budget a := by
  unfold State.carry
  split <;> omega

theorem State.balance_refill_self (s : State) (a : Acct) : (s.refill a).balance a = s.budget a + s.carry a := by
  rw [State.refill_eq, State.balance, State.rint, State.rget_rset, if_pos rfl]
  have hb := s.budget_lt a
  have hc := s.carry_nonneg a
  have hl := s.carry_le a
  exact BitVec.toInt_ofInt_eq_self (by decide) (by omega) (by omega)

theorem State.rget_refill_of_ne (s : State) {a : Acct} {r : Reg} (h : r ≠ a.bal) : (s.refill a).rget r = s.rget r := by
  rw [State.refill_eq, State.rget_rset, if_neg h]

/-! ### The refill of every account (R78) -/

theorem Acct.bal_injective : Function.Injective Acct.bal := by
  intro a b h
  cases a <;> cases b <;> simp_all [Acct.bal]

/-- The names of the registers that hold balances (Table 04.5). -/
def balanceNames : List RegName := [.tenBal, .pBal, .bgBal]

theorem Acct.bal_name (a : Acct) : a.bal.n ∈ balanceNames := by
  cases a <;> simp [Acct.bal, balanceNames]

/-- The budget of an account is in registers that hold no balance. -/
theorem State.budget_congr {s t : State} (h : ∀ r : Reg, r.n ∉ balanceNames → t.rget r = s.rget r) (a : Acct) : t.budget a = s.budget a := by
  have hr (n : RegName) (hn : n ∉ balanceNames) (lo w i j : Nat) : t.rfld n lo w i j = s.rfld n lo w i j := by
    rw [State.rfld, State.rnat, h ⟨n, i, j⟩ hn, State.rfld, State.rnat]
  cases a <;>
    simp only [State.budget, hr .tenBudArray (by decide), hr .tenBudStack (by decide), hr .tenBudLink (by decide), hr .tenBudQuisto (by decide),
      hr .budArray (by decide), hr .budStack (by decide), hr .budLink (by decide), hr .bgSelftest (by decide), hr .bgMigStack (by decide),
      hr .bgMigLink (by decide), hr .bgZeroStack (by decide)]

theorem State.budget_refill (s : State) (a b : Acct) : (s.refill a).budget b = s.budget b :=
  State.budget_congr (fun _ hr => s.rget_refill_of_ne fun h => hr (h ▸ a.bal_name)) b

theorem State.balance_refill_of_ne (s : State) {a b : Acct} (h : b ≠ a) : (s.refill a).balance b = s.balance b := by
  rw [State.balance, State.rint, s.rget_refill_of_ne (Acct.bal_injective.ne h), State.balance, State.rint]

theorem State.carry_refill_of_ne (s : State) {a b : Acct} (h : b ≠ a) : (s.refill a).carry b = s.carry b := by
  rw [State.carry, s.balance_refill_of_ne h, s.budget_refill, State.carry]

theorem State.rget_refills (l : List Acct) (r : Reg) (h : r ∉ l.map Acct.bal) : ∀ s : State, (l.foldl State.refill s).rget r = s.rget r := by
  induction l with
  | nil => exact fun _ => rfl
  | cons a l ih =>
    rw [List.map_cons, List.mem_cons, not_or] at h
    intro s
    rw [List.foldl_cons, ih h.2, s.rget_refill_of_ne h.1]

theorem State.balance_refills {l : List Acct} (hl : l.Nodup) {a : Acct} (ha : a ∈ l) :
    ∀ s : State, (l.foldl State.refill s).balance a = s.budget a + s.carry a := by
  induction l with
  | nil => exact absurd ha List.not_mem_nil
  | cons b l ih =>
    obtain ⟨hb, hl⟩ := List.nodup_cons.mp hl
    intro s
    rw [List.foldl_cons]
    rcases List.mem_cons.mp ha with rfl | ha
    · have hrest : a.bal ∉ l.map Acct.bal := fun h => hb ((List.mem_map_of_injective Acct.bal_injective).mp h)
      rw [State.balance, State.rint, State.rget_refills l _ hrest, ← State.rint, ← State.balance, State.balance_refill_self]
    · have hne : a ≠ b := fun h => hb (h ▸ ha)
      rw [ih hl ha, s.budget_refill, s.carry_refill_of_ne hne]

theorem allAccts_nodup : allAccts.Nodup := by decide +kernel

/-- Settles O56: an account is refilled once, and nothing else touches its balance or its budget. -/
theorem everyAccountIsRefilled : Obligations.EveryAccountIsRefilled := by
  unfold Obligations.EveryAccountIsRefilled
  exact fun s a ha => ⟨State.balance_refills allAccts_nodup ha s, fun _ hr => State.rget_refills allAccts _ hr s⟩

end Sys2Proof.Machine


/-! O55 fails on a state whose step table lists no step and whose default is one: the entry of the step that ends with its record goes back to that
default. -/

namespace Sys2Proof.Machine

/-- A NOP of tenant 0, packet 0 of queue 1, as it is dispatched. -/
def dispatchedNop : Ctx :=
  { id := ⟨1, 0⟩, fn := 1, part := some 0, sid := 0, epoch := 0, words := List.replicate 16 0
    phase := .dispatched, status := 0, detail := 0, evt := false, fetchedAt := 0, begunAt := 0, work := .none }

/-- The block after reset with that NOP in flight on a running queue, every entry of its step table a step of one command by default. -/
def stepsByDefault : State :=
  { State.reset with
    cp :=
      { Cp.reset with
        ctxs := [dispatchedNop]
        queues := Cp.reset.queues.set 1 { mode := .running, enable := true, tail := 1, head := 1, ringBase := 0x10000, cplBase := 0x20000 }
        steps := .of (some (Step.fresh dispatchedNop false))
        nextSid := 1
        fns := Cp.reset.fns.set 1 ⟨true, false, false, 0, false⟩ } }

theorem stepsByDefault_begins : stepsByDefault.begins 0x00 1 0 dispatchedNop :=
  ⟨by decide +kernel, by decide +kernel, by decide +kernel, by decide +kernel, rfl, rfl⟩

/-- A command's answer leaves a step in the table at an entry. -/
def leavesStep (r : Host.Outcome State Fault Refusal) (sid : Nat) : Bool :=
  match r with
  | .next t => (t.step? sid).isSome
  | _ => false

theorem leavesStep_of_leadsTo {c : Instr} {s t : State} {sid : Nat} (h : LeadsTo c s t) (hl : leavesStep (exec c s) sid = true) :
    t.step? sid ≠ none := by
  rw [show exec c s = _ from h] at hl
  exact Option.isSome_iff_ne_none.mp hl

/-- Refutes O55: the step of the NOP stays in the table, for the entry freed with its record holds the table's default. -/
theorem not_aNopWritesItsRecord : ¬ Obligations.ANopWritesItsRecord := by
  unfold Obligations.ANopWritesItsRecord
  intro h
  obtain ⟨t, hto, -, -, -, hnone, -⟩ := h stepsByDefault 1 0 [] dispatchedNop 0x20000 _ _ stepsByDefault_begins (by unfold State.runs; decide +kernel)
    (by decide +kernel) (by decide +kernel) rfl (by decide +kernel) rfl rfl (by decide +kernel) (by decide +kernel) (by decide +kernel)
    (by decide +kernel) (by decide +kernel) rfl
  exact leavesStep_of_leadsTo hto (by decide +kernel) hnone

end Sys2Proof.Machine


/-! Accesses at BAR4 (R211, R222, R224, R309, R361): what errors taken on leave unchanged, and the outcomes of a read and of a write; then O54. -/

namespace Sys2Proof.Machine

/-! ### Errors that memory takes on change no byte (R222) -/

theorem State.hit_frame (s : State) (e : Hit) : ∃ es ts, s.hit e = s.withMem fun m => { m with errs := es, tagErrs := ts } := by
  have hsame : ∃ es ts, s = s.withMem fun m => { m with errs := es, tagErrs := ts } := ⟨s.mem.errs, s.mem.tagErrs, rfl⟩
  cases e with
  | line e =>
    simp only [State.hit]
    split
    · exact ⟨_, s.mem.tagErrs, rfl⟩
    · exact hsame
  | tag p =>
    simp only [State.hit]
    split
    · exact ⟨s.mem.errs, _, rfl⟩
    · exact hsame

theorem State.strike_frame (es : List Hit) :
    ∀ s : State, ∃ ls ts, s.strike es = s.withMem fun m => { m with errs := ls, tagErrs := ts } := by
  induction es with
  | nil => exact fun s => ⟨s.mem.errs, s.mem.tagErrs, rfl⟩
  | cons e es ih =>
    intro s
    obtain ⟨_, _, he⟩ := s.hit_frame e
    obtain ⟨ls, ts, hs⟩ := ih (s.hit e)
    exact ⟨ls, ts, hs.trans (by rw [he]; rfl)⟩

theorem State.strike_bytes (s : State) (es : List Hit) : (s.strike es).mem.bytes = s.mem.bytes := by
  obtain ⟨_, _, h⟩ := s.strike_frame es
  rw [h]
  rfl

theorem State.strike_io (s : State) (es : List Hit) : (s.strike es).io = s.io := by
  obtain ⟨_, _, h⟩ := s.strike_frame es
  rw [h]
  rfl

/-! ### Refused accesses and reads (R211) -/

/-- A function's BAR4 reaches an extent: pages of its own map, none of them sealed. -/
def State.bar4Ok (s : State) (fn off len : Nat) : Prop := s.extOk fn off len = true ∧ s.extSealed fn off len = false

/-- A refused access is counted for a tenant. -/
def State.bar4Denied (s : State) (fn : Nat) : State := if fn = 0 then s else s.radd32 .memBarDenied (fn - 1) 0 1

section
variable {s : State} {fn off len : Nat}

theorem State.bar4_refused (h : s.extOk fn off len = false ∨ s.extSealed fn off len = true) (w : Option (List W8)) :
    s.bar4 fn off len w =
      match w with
      | none => (s.bar4Denied fn).send (.readData fn (List.replicate len 0) false)
      | some _ => s.bar4Denied fn := by
  have hmeet : (w.isNone && s.extOk fn off len && !s.extSealed fn off len) = false := by rcases h with h | h <;> simp [h]
  have hok : (s.extOk fn off len && !s.extSealed fn off len) = false := by rcases h with h | h <;> simp [h]
  unfold State.bar4 State.bar4Denied
  simp only [hmeet, Bool.false_eq_true, if_false, hok, Bool.not_false, if_true, tenantOf]
  cases w <;> by_cases h0 : fn = 0 <;> simp [h0]

section
variable {t : State} (hok : s.bar4Ok fn off len) (ht : t = s.meetExt fn off len) (hok' : t.bar4Ok fn off len)
include hok ht hok'

/-- A read of pages that BAR4 reaches is a read of device memory after its lines are met. -/
theorem State.bar4_read :
    s.bar4 fn off len none =
      match t.devRead fn off len with
      | .error (.held _) => t
      | .ok bs => t.send (.readData fn bs false)
      | .error (.poison l) =>
        ((match (t.linesOf fn off len).find? fun l => t.mem.tagErrs.contains (l / 32768) with
          | some k => t.logMem k 14 0
          | none => t).radd32 .poisonReads (chanOf (l * 64)) 0 1).send (.readData fn (List.replicate len 0) true)
      | .error _ => t.send (.readData fn (List.replicate len 0) false) := by
  subst ht
  unfold State.bar4
  simp [hok.1, hok.2, hok'.1, hok'.2] <;> rfl

theorem State.bar4_read_bytes (hheld : t.extHeld fn off len = none) (hp : t.firstPoison fn off len = none) :
    s.bar4 fn off len none =
      t.send (.readData fn ((List.range len).map fun i => memGet t.mem.bytes (t.phys fn (off + i))) false) := by
  rw [State.bar4_read hok ht hok', State.devRead, hok'.1, hheld, hp]
  rfl

theorem State.bar4_read_poison {l : Nat} (hheld : t.extHeld fn off len = none) (hp : t.firstPoison fn off len = some l) :
    s.bar4 fn off len none =
      ((match (t.linesOf fn off len).find? fun l => t.mem.tagErrs.contains (l / 32768) with
        | some k => t.logMem k 14 0
        | none => t).radd32 .poisonReads (chanOf (l * 64)) 0 1).send (.readData fn (List.replicate len 0) true) := by
  rw [State.bar4_read hok ht hok', State.devRead, hok'.1, hheld, hp]
  rfl

theorem State.bar4_read_held {c : Nat} (hheld : t.extHeld fn off len = some c) : s.bar4 fn off len none = t := by
  rw [State.bar4_read hok ht hok', State.devRead, hok'.1, hheld]
  rfl

end

/-! ### A write within a line (R224) -/

/-- The bytes of a line lie in one page. -/
theorem State.phys_line (s : State) (fn off : Nat) : s.phys fn (off / 64 * 64) / 64 = s.phys fn off / 64 := by
  have hpage : off / 64 * 64 / pageSize = off / pageSize := by unfold pageSize; omega
  unfold State.phys State.mapEnt
  rw [hpage]
  unfold pageSize
  omega

theorem State.linesOf_within (h : off % 64 + len ≤ 64) (hlen : 0 < len) : s.linesOf fn off len = [s.phys fn off / 64] := by
  have hone : (off + len - 1) / 64 - off / 64 + 1 = 1 := by omega
  rw [State.linesOf, if_neg (by omega), hone, List.range_one, List.map_singleton, Nat.add_zero, s.phys_line]

theorem cdiv_within {n : Nat} (h : n ≤ 64) : cdiv n 64 = if n = 0 then 0 else 1 := by
  unfold cdiv
  rcases Nat.eq_zero_or_pos n with rfl | hpos
  · rfl
  · rw [if_neg (show n ≠ 0 by omega)]
    split <;> omega

/-- Nothing is written by an empty write. -/
theorem State.lineWrite_nil {pa : Nat} {t : State} (h : s.lineWrite pa [] = .ok t) : t = s := by
  have h64 : ([] : List W8).length ≠ 64 := by decide
  simp only [State.lineWrite, if_neg h64] at h
  repeat' split at h
  all_goals cases h
  all_goals rfl

/-- A write to a line that stands open, is not poisoned and has no uncorrectable error is stored. -/
theorem State.lineWrite_stored {pa : Nat} (hheld : s.heldCause (pa / 64) = none) (hp : s.linePoison (pa / 64) = false)
    (he : s.mem.errs.contains ⟨pa / 64, true⟩ = false) (bs : List W8) :
    ∃ t, s.lineWrite pa bs = .ok t ∧ t.mem.bytes = memPuts s.mem.bytes pa bs ∧ t.io = s.io := by
  have hpage : pa / 64 / 32768 = pa / pageSize := by unfold pageSize; omega
  simp only [State.linePoison, Bool.or_eq_false_iff] at hp
  obtain ⟨⟨⟨hp1, hp2⟩, htag⟩, hchan⟩ := hp
  have hch : s.rbit .chanState 16 (chanOf pa) = false := by rwa [chanOf, ← hpage]
  unfold State.lineWrite
  simp only [hheld, htag, hch]
  by_cases h64 : bs.length = 64
  · exact ⟨_, if_pos h64, rfl, rfl⟩
  · refine ⟨_, (if_neg h64).trans (if_neg ?_), rfl, rfl⟩
    simp only [State.linePoison, hp1, hp2, htag, hchan, he]
    decide

/-- The write of a BAR4 access within a line: one piece, stored where the line takes it. -/
theorem State.bar4_write_within {bs : List W8} (hok : s.bar4Ok fn off len) (hbs : bs.length = len) (hlen : off % 64 + len ≤ 64)
    (hheld : s.extHeld fn off len = none) (hp : s.linePoison (s.phys fn off / 64) = false)
    (he : s.mem.errs.contains ⟨s.phys fn off / 64, true⟩ = false) :
    (s.bar4 fn off len (some bs)).mem.bytes = memPuts s.mem.bytes (s.phys fn off) bs ∧ (s.bar4 fn off len (some bs)).io = s.io := by
  have htags : ((s.linesOf fn off len).find? fun l => s.mem.tagErrs.contains (l / 32768)) = none := by
    rcases Nat.eq_zero_or_pos len with h0 | hpos
    · rw [h0]
      rfl
    · simp only [State.linePoison, Bool.or_eq_false_iff] at hp
      rw [State.linesOf_within hlen hpos]
      simpa using hp.1.2
  have hpiece : (bs.drop (off - off)).take (64 - off % 64) = bs := by
    rw [Nat.sub_self, List.drop_zero]
    exact List.take_of_length_le (by omega)
  have hgo : s.bar4 fn off len (some bs) =
      if off % 64 + len = 0 then s else match s.lineWrite (s.phys fn off) bs with | .ok t' => t' | .error _ => s := by
    unfold State.bar4
    simp only [Option.isNone_some, Bool.false_eq_true, if_false, hok.1, hok.2, htags, hbs, hheld, cdiv_within hlen,
      Bool.not_true, Bool.not_false, Bool.and_true]
    by_cases h0 : off % 64 + len = 0
    · rw [if_pos h0, if_pos h0]
      rfl
    · rw [if_neg h0, if_neg h0, List.range_one]
      simp only [Option.isSome_none, Bool.false_eq_true, if_false, List.foldl_cons, List.foldl_nil, if_true, hpiece] <;> rfl
  rw [hgo]
  rcases Nat.eq_zero_or_pos len with h0 | hpos
  · obtain rfl : bs = [] := List.length_eq_zero_iff.mp (hbs.trans h0)
    split
    · exact ⟨rfl, rfl⟩
    · split
      · next hw =>
        rw [State.lineWrite_nil hw]
        exact ⟨rfl, rfl⟩
      · exact ⟨rfl, rfl⟩
  · rw [State.extHeld, State.linesOf_within hlen hpos] at hheld
    have hline : s.heldCause (s.phys fn off / 64) = none := by simpa using hheld
    obtain ⟨t, ht, hbytes, hio⟩ := State.lineWrite_stored hline hp he bs
    rw [if_neg (by omega), ht]
    exact ⟨hbytes, hio⟩

end

/-! ### The row -/

theorem leadsTo_bar4 {s s1 t : State} {fn off len : Nat} {w : Option (List W8)} {es : List Hit} (h : s.reached fn) (hs : s1 = s.strike es)
    (hin : fn ≠ 0 ∨ s1.inArea off len = false) (e : s1.bar4 fn off len w = t) : LeadsTo (.BAR4_ACCESS fn off len w es) s t := by
  subst hs
  refine answer_reached h.2 h.1 _ ((if_neg ?_).trans e)
  rintro ⟨h0, ha⟩
  rcases hin with h | h
  · exact h h0
  · exact absurd ha (by simp [h])

/-- Settles O54: a refusal, a read of met lines, or the store of one line's bytes. -/
theorem bar4AccessesReachUnsealedPages : Obligations.Bar4AccessesReachUnsealedPages := by
  unfold Obligations.Bar4AccessesReachUnsealedPages
  intro s s1 fn off len es bs hreach hs1
  refine ⟨fun w h0 hin => ?area, fun u hin hu href => ?refused, fun t hin hok hseal => ⟨fun ht hok' hseal' => ?read, ?write⟩⟩
  case area =>
    subst h0 hs1
    exact answer_reached hreach.2 hreach.1 _ (if_pos ⟨rfl, hin⟩)
  case refused =>
    subst hu
    exact ⟨leadsTo_bar4 hreach hs1 hin (State.bar4_refused href none), leadsTo_bar4 hreach hs1 hin (State.bar4_refused href (some bs))⟩
  case read =>
    have hs : s1.bar4Ok fn off len := ⟨hok, hseal⟩
    have ht' : t.bar4Ok fn off len := ⟨hok', hseal'⟩
    refine ⟨fun hheld hp => leadsTo_bar4 hreach hs1 hin (State.bar4_read_bytes hs ht ht' hheld hp), fun l hheld hp hnone => ?_,
      fun l k hheld hp hsome => ?_, fun c hheld => leadsTo_bar4 hreach hs1 hin (State.bar4_read_held hs ht ht' hheld)⟩
    · refine leadsTo_bar4 hreach hs1 hin ((State.bar4_read_poison hs ht ht' hheld hp).trans ?_)
      rw [hnone]
    · refine leadsTo_bar4 hreach hs1 hin ((State.bar4_read_poison hs ht ht' hheld hp).trans ?_)
      rw [hsome]
  case write =>
    intro hbs hlen hheld hp he hcanon
    obtain ⟨hbytes, hio⟩ := State.bar4_write_within ⟨hok, hseal⟩ hbs hlen hheld hp he
    obtain ⟨hwf, -⟩ := (Bool.and_eq_true _ _).mp hcanon
    refine ⟨_, leadsTo_bar4 hreach hs1 hin rfl, ?_, ?_, fun a => ?_⟩
    · rw [hbytes]
      exact memWf_memPuts bs _ hwf
    · rw [hio, hs1, s.strike_io]
    · rw [hbytes, memGet_memPuts bs _ a hwf, hbs, ← s.strike_bytes es, hs1]

end Sys2Proof.Machine


/-! The frame of the rows that act on registers and on their own unit only: what a row may change, kept through its guards; then O59. -/

namespace Sys2Proof.Machine

/-- `t` is `s` but for the registers of names `rs` and for units other than memory, the Toychest's bytes and the contexts. -/
def State.Frames (rs : List RegName) (s t : State) : Prop :=
  t.mem = s.mem ∧ t.toy.bytes = s.toy.bytes ∧ t.cp.ctxs = s.cp.ctxs ∧ ∀ r : Reg, r.n ∉ rs → t.rget r = s.rget r

section
variable {rs : List RegName} {s t u : State}

theorem frames_refl : State.Frames rs s s := ⟨rfl, rfl, rfl, fun _ _ => rfl⟩

theorem State.Frames.trans (h : State.Frames rs s t) (k : State.Frames rs t u) : State.Frames rs s u := by
  obtain ⟨hm, hb, hc, hr⟩ := h
  obtain ⟨km, kb, kc, kr⟩ := k
  exact ⟨km.trans hm, kb.trans hb, kc.trans hc, fun r hn => (kr r hn).trans (hr r hn)⟩

/-- What leaves the registers in force alone keeps the frame. -/
theorem frames_of_units (hm : t.mem = s.mem) (hb : t.toy.bytes = s.toy.bytes) (hc : t.cp.ctxs = s.cp.ctxs) (hr : t.rget = s.rget) :
    State.Frames rs s t := ⟨hm, hb, hc, fun r _ => congrFun hr r⟩

theorem frames_rput {n : RegName} (hn : n ∈ rs) (i j v : Nat) : State.Frames rs s (s.rput n i j v) := by
  refine ⟨rfl, rfl, rfl, fun r hr => ?_⟩
  rw [State.rget_rput, if_neg]
  rintro rfl
  exact hr hn

theorem frames_ite {c : Prop} [Decidable c] (h : State.Frames rs s t) : State.Frames rs s (if c then t else s) := by
  split
  · exact h
  · exact frames_refl

theorem frames_ite_not {c : Prop} [Decidable c] (h : State.Frames rs s t) : State.Frames rs s (if c then s else t) := by
  split
  · exact frames_refl
  · exact h

theorem frames_foldl {α : Type} {f : State → α → State} (h : ∀ s a, State.Frames rs s (f s a)) (l : List α) :
    ∀ s, State.Frames rs s (l.foldl f s) := by
  induction l with
  | nil => exact fun _ => frames_refl
  | cons a l ih => exact fun s => (h s a).trans (ih _)

end

/-- The answer of a row that keeps a frame. -/
theorem answer_frames {rs : List RegName} {b : Bool} {s t u : State} (h : answer b s u = .next t) (hu : State.Frames rs s u) :
    t.mem = s.mem ∧ t.toy.bytes = s.toy.bytes ∧ t.cp.ctxs = s.cp.ctxs ∧ t.pending = s.pending ∧ ∀ r : Reg, r.n ∉ rs → t.rget r = s.rget r := by
  obtain ⟨-, rfl⟩ := (answer_next_iff ..).mp h
  obtain ⟨hm, hb, hc, hr⟩ := hu
  exact ⟨hm, hb, hc, rfl, hr⟩

/-! ### What the rows do keeps their frames -/

section
variable (s : State)

theorem State.msixNow_frames (fn v : Nat) : State.Frames [] s (s.msixNow fn v) := frames_of_units rfl rfl rfl rfl

theorem State.moderate_frames (fn v : Nat) : State.Frames [] s (s.moderate fn v) := frames_ite (s.msixNow_frames fn v)

theorem State.unmask_frames (fn v : Nat) : State.Frames [] s (s.unmask fn v) :=
  (frames_of_units rfl rfl rfl rfl : State.Frames [] s (s.updVec fn v _)).trans (State.moderate_frames _ fn v)

theorem State.msixWrite_control_frames (fn v w : Nat) : State.Frames [] s (s.msixWrite fn v 3 w) := by
  have hmask : State.Frames [] s (s.updVec fn v fun x => { x with mask := bit w 0 }) := frames_of_units rfl rfl rfl rfl
  unfold State.msixWrite
  simp only [OfNat.ofNat_ne_zero, OfNat.ofNat_ne_one, Nat.reduceEqDiff, if_false]
  split
  · exact hmask.trans (State.unmask_frames _ fn v)
  · exact hmask

theorem State.drbgReseed_frames (u : Nat) : State.Frames [] s (s.drbgReseed u) := frames_ite_not (frames_ite (frames_of_units rfl rfl rfl rfl))

theorem State.showLane_frames {rs : List RegName} (h : .eqState ∈ rs) (l n : Nat) : State.Frames rs s (s.showLane l n) := frames_rput h _ _ _

theorem State.controlSlot_frames (l : Nat) : State.Frames [.eqState] s (s.controlSlot l) := by
  refine frames_ite_not (.trans (frames_of_units rfl rfl rfl rfl) (frames_foldl (fun t n => t.showLane_frames ?_ l n) _ _))
  exact List.mem_singleton_self _

theorem State.startTraining_frames (l : Nat) : State.Frames [.lnkStatus, .eqState] s (s.startTraining l false) := by
  have hstart : State.Frames [.lnkStatus, .eqState] s (s.rsetFld .lnkStatus 0 3 2 l) := frames_rput (by simp) _ _ _
  exact (hstart.trans (frames_of_units rfl rfl rfl rfl)).trans (frames_foldl (fun t n => t.showLane_frames (by simp) l n) _ _)

theorem State.linkReexamine_frames (l : Nat) (signal : Bool) : State.Frames [.lnkStatus, .eqState] s (s.linkReexamine l signal) := by
  refine frames_ite ?_
  cases signal
  · exact frames_of_units rfl rfl rfl rfl
  · exact s.startTraining_frames l

theorem State.sensorRead_frames (k : Nat) : State.Frames [] s (s.sensorRead k) := by
  unfold State.sensorRead
  split
  · exact frames_of_units rfl rfl rfl rfl
  · exact frames_refl

theorem State.openEpoch_frames : State.Frames [.epochCtrl] s s.openEpoch :=
  frames_ite_not (.trans (frames_of_units rfl rfl rfl rfl) (frames_rput (List.mem_singleton_self _) _ _ _))

theorem State.abandonEpoch_frames : State.Frames [.epochCtrl] s s.abandonEpoch :=
  frames_ite_not (.trans (frames_of_units rfl rfl rfl rfl) (frames_rput (List.mem_singleton_self _) _ _ _))

theorem State.svnCommit_frames (v : Nat) : State.Frames [.bootStatus] s (s.svnCommit v) :=
  frames_ite (.trans (frames_of_units rfl rfl rfl rfl) (frames_rput (List.mem_singleton_self _) _ _ _))

theorem State.capWrite_frames (v : Nat) (m : Bool) : State.Frames [.cap, .capStatus] s (s.capWrite v m) := by
  have hcap : State.Frames [.cap, .capStatus] s (s.rput .cap 0 0 (v % 2048)) := frames_rput (by simp) _ _ _
  exact (hcap.trans (frames_rput (by simp) _ _ _)).trans (frames_of_units rfl rfl rfl rfl)

theorem State.showIsl_frames (k : Nat) : State.Frames [.islStatus] s (s.showIsl k) := frames_rput (List.mem_singleton_self _) _ _ _

theorem State.updIsl_showIsl_frames (k : Nat) (f : Isl → Isl) : State.Frames [.islStatus] s ((s.updIsl k f).showIsl k) :=
  .trans (frames_of_units rfl rfl rfl rfl) (State.showIsl_frames _ k)

theorem State.droopDetect_frames (k : Nat) : State.Frames [.islStatus] s (s.droopDetect k) := frames_ite_not (s.updIsl_showIsl_frames k _)

theorem State.clockRestart_frames (k : Nat) : State.Frames [.islStatus] s (s.clockRestart k) := by
  unfold State.clockRestart
  split
  · exact frames_ite (s.updIsl_showIsl_frames k _)
  · exact frames_refl

theorem State.stopWindowEnd_frames (k : Nat) : State.Frames [.islStatus] s (s.stopWindowEnd k) := by
  unfold State.stopWindowEnd
  split
  · exact frames_ite (s.updIsl_showIsl_frames k _)
  · exact frames_refl

theorem State.activate_frames : State.Frames [.bootPrefer] s s.activate :=
  frames_ite (.trans (frames_rput (List.mem_singleton_self _) _ _ _) (frames_of_units rfl rfl rfl rfl))

end

/-- Settles O59: row by row, what it does keeps its frame, and so do its guards. -/
theorem framedRowsChangeOnlyTheirRegisters : Obligations.FramedRowsChangeOnlyTheirRegisters := by
  unfold Obligations.FramedRowsChangeOnlyTheirRegisters
  intro c rs s t hc h
  cases hc with
  | toyUseDecay => exact answer_frames (b := true) (u := s.toyDecay) h (frames_ite_not (frames_of_units rfl rfl rfl rfl))
  | sketchDecay p => exact answer_frames h (frames_ite_not (frames_of_units rfl rfl rfl rfl))
  | replicaExpiry => exact answer_frames (b := true) (u := s.replicaExpiry) h (frames_of_units rfl rfl rfl rfl)
  | queuePause fn q v => exact answer_frames h (frames_ite (frames_ite (frames_ite_not (frames_of_units rfl rfl rfl rfl))))
  | msixSend fn v => exact answer_frames h (frames_ite (frames_ite (s.moderate_frames fn v)))
  | msixUnmask fn v => exact answer_frames h (frames_ite (s.msixWrite_control_frames fn v 0))
  | drbgReseed u => exact answer_frames h (frames_ite (s.drbgReseed_frames u))
  | controlSlot l => exact answer_frames h (frames_ite (s.controlSlot_frames l))
  | setEndpoint v => exact answer_frames h (frames_ite (frames_ite_not (frames_of_units rfl rfl rfl rfl)))
  | sensorRead k => exact answer_frames (b := true) (u := s.mgmt fun t => t.sensorRead k) h (frames_ite (s.sensorRead_frames k))
  | logRead k => exact answer_frames h (frames_ite (frames_of_units rfl rfl rfl rfl))
  | firmwarePiece n o b => exact answer_frames (b := true) (u := s.mgmt fun t => t.fwTransfer n o b) h (frames_ite (frames_ite_not (frames_of_units rfl rfl rfl rfl)))
  | applyComplete => exact answer_frames (b := true) (u := s.mgmt State.applyComplete) h (frames_ite (frames_ite_not (frames_of_units rfl rfl rfl rfl)))
  | epochOpen => exact answer_frames (b := true) (u := s.fromHost 0 State.openEpoch) h (frames_ite s.openEpoch_frames)
  | epochAbandon => exact answer_frames (b := true) (u := s.fromHost 0 State.abandonEpoch) h (frames_ite s.abandonEpoch_frames)
  | rangeWrite t v => exact answer_frames h (frames_ite (frames_ite_not (frames_rput (List.mem_singleton_self _) _ _ _)))
  | headWrite fn v => exact answer_frames h (frames_ite (frames_ite (frames_ite (frames_rput (List.mem_singleton_self _) _ _ _))))
  | clrMax p => exact answer_frames h (frames_ite (frames_rput (List.mem_singleton_self _) _ _ _))
  | fenceClear n v => exact answer_frames h (frames_ite (frames_rput (List.mem_singleton_self _) _ _ _))
  | svnCommit v => exact answer_frames (b := true) (u := s.fromSafe fun t => t.svnCommit (v.toNat % 128)) h (frames_ite (s.svnCommit_frames _))
  | driveOnline d on => exact answer_frames h (frames_ite (frames_rput (List.mem_singleton_self _) _ _ _))
  | capWrite v m =>
    cases m
    · exact answer_frames (b := true) (u := s.fromHost 0 fun t => t.capWrite v.toNat false) h (frames_ite (s.capWrite_frames _ false))
    · exact answer_frames (b := true) (u := s.mgmt fun t => t.capWrite v.toNat true) h (frames_ite (s.capWrite_frames _ true))
  | droopDetect k => exact answer_frames h (s.droopDetect_frames k)
  | clockRestart k => exact answer_frames h (s.clockRestart_frames k)
  | windowEnd k => exact answer_frames h (s.stopWindowEnd_frames k)
  | reexamine l sg => exact answer_frames h (frames_ite (s.linkReexamine_frames l sg))
  | activate => exact answer_frames (b := true) (u := s.mgmt State.activate) h (frames_ite s.activate_frames)

end Sys2Proof.Machine


/-! The control packets (R32, R33, R93, R322, R323) and the Toychest's packets and slots (R57 to R63): O6, O7, O9. -/

namespace Sys2Proof.Machine

variable {s : State} {q c : Nat} {h : HostData} {x : Ctx}

/-! ### Control packets -/

theorem State.stepEnd_last {st : Step} (hst : s.step? x.sid = some st)
    (hrest : ∀ y ∈ s.stepCtxs x.sid, y.id ≠ x.id → y.phase = .done) (hreq : (∀ r ∈ s.emb.reqs, r.sid ≠ x.sid) ∨ st.exchRun = true) :
    s.stepEnd x h = s.finish x.id stDone st.endDetail := by
  have hdone : ((s.stepCtxs x.sid).any fun y => decide (y.id ≠ x.id) && decide (y.phase ≠ .done)) = false := by
    simpa using hrest
  have hnone : ¬((s.emb.reqs.filter fun r => r.sid = x.sid) ≠ [] ∧ (!st.exchRun) = true) := by
    rintro ⟨hne, hrun⟩
    rcases hreq with hno | hyes
    · exact hne (List.filter_eq_nil_iff.mpr (by simpa using hno))
    · simp [hyes] at hrun
  rw [State.stepEnd, hdone, if_neg (by decide), hst]
  exact if_neg hnone

theorem State.fenceWait_reached (hv : (x.a 4).toNat ≤ (s.rget (waitFence x)).toNat) :
    s.fenceWait x = s.finish x.id stDone (w32 (s.rget (waitFence x)).toNat) :=
  (if_pos hv).trans (if_pos hv)

theorem State.fenceWait_waits (hv : (s.rget (waitFence x)).toNat < (x.a 4).toNat) :
    s.fenceWait x = s.updCtx x.id fun y => { y with phase := .running, begunAt := s.now, work := .waits s.now 0 0 } :=
  if_neg (Nat.not_le.mpr hv)

theorem State.fenceTimeout_passed {since : W64} {a b : Nat} (hw : s.waitsIn 0x04 q c x) (hwork : x.work = .waits since a b) (h6 : x.w 6 ≠ 0)
    (ht : x.w 6 * 1000 ≤ ticks since s.now) : s.fenceTimeout (cmdId q c) = s.finish (cmdId q c) stRefused 1 := by
  obtain ⟨-, -, hx, hop, hp⟩ := hw
  simp [State.fenceTimeout, hx, hp, hwork, hop, h6, ht]

/-- Settles O6: each packet begins with its own effect. -/
theorem controlPacketsComplete : Obligations.ControlPacketsComplete := by
  unfold Obligations.ControlPacketsComplete
  intro s q c h x
  refine ⟨fun hb => answer_begins hb _ _ rfl, fun hb => answer_begins hb _ _ rfl, fun st hb hst hrest hreq => ?stepEnd,
    fun f v hb hf hv => ?signal, fun hb hv => answer_begins hb _ _ (State.fenceWait_reached hv),
    fun hb hv => answer_begins hb _ _ (State.fenceWait_waits hv), fun since a b hw hwork h6 ht => ?timeout⟩
  case stepEnd => exact answer_begins hb _ _ (State.stepEnd_last hst hrest hreq)
  case signal =>
    subst hf hv
    exact answer_begins hb _ _ rfl
  case timeout =>
    exact answer_to hw.1 ((State.onCp_runs hw.2.1 _).trans (State.fenceTimeout_passed hw hwork h6 ht))

/-! ### MODEL_LOAD (R57, R58) -/

section
variable (hahead : s.evictAhead x (fld (x.w 2) 0 10) = false)
include hahead

theorem State.modelLoad_resident {m : Model} (hm : s.model? x.ten (fld (x.w 2) 0 10) = some m) (hres : m.resident = true) :
    s.modelLoad x = s.finish x.id stDone (w32 (sat 511 m.slots.length + 512)) := by
  simp [State.modelLoad, hahead, hm, hres]

theorem State.modelLoad_absent (hm : s.model? x.ten (fld (x.w 2) 0 10) = none) :
    s.modelLoad x = (s.updCtx x.id fun y => { y with phase := .running }).beginLoad { x with phase := .running } x.ten (fld (x.w 2) 0 10)
      (x.w 3) (x.a 4) 0 := by
  simp [State.modelLoad, hahead, hm]

end

section
variable {t : State} {k n : Nat} {src : W64} {ev : Nat}

theorem State.beginLoad_isolated (hiso : s.isolated (x.part.getD 0) = true)
    (hclaim : s.claimSlots x x.ten k (x.part.getD 0 + 1) n src 0 = some t) : s.beginLoad x x.ten k n src ev = t := by
  simp [State.beginLoad, hiso, hclaim]

theorem State.evictFor_enough (fuel : Nat) (hfree : n ≤ (s.slotsIn 0 .empty).length + (s.slotsIn 0 .zeroing).length) :
    State.evictFor fuel s n ev = (s, ev) := by
  cases fuel with
  | zero => rfl
  | succ fuel => exact if_pos hfree

/-- Where the pooled group has slots enough, nothing is evicted for a load. -/
theorem State.beginLoad_pooled (hiso : s.isolated (x.part.getD 0) = false) (hlimit : slotsFor n ≤ s.pooledLimit x.id.q)
    (hfree : slotsFor n ≤ (s.slotsIn 0 .empty).length + (s.slotsIn 0 .zeroing).length)
    (hclaim : s.claimSlots x x.ten k 0 n src ev = some t) : s.beginLoad x x.ten k n src ev = t := by
  rw [State.beginLoad]
  simp only [hiso, Bool.false_eq_true, if_false, if_neg (Nat.not_lt.mpr hlimit), State.evictFor_enough 257 hfree, hclaim]

end

/-- Settles O7: a resident model completes the load; an absent one's slots are claimed in its group. -/
theorem modelLoadsClaimTheirSlots : Obligations.ModelLoadsClaimTheirSlots := by
  unfold Obligations.ModelLoadsClaimTheirSlots
  rintro s q c h x k hb rfl hahead
  refine ⟨fun m hm hres => ?resident, fun t hm hiso hclaim => ?isolated, fun t hm hiso hlimit hfree hclaim => ?pooled⟩
  case resident => exact answer_begins hb _ _ (State.modelLoad_resident hahead hm hres)
  case isolated =>
    exact answer_begins hb _ _ ((State.modelLoad_absent hahead hm).trans
      (State.beginLoad_isolated (x := { x with phase := .running }) hiso hclaim))
  case pooled =>
    exact answer_begins hb _ _ ((State.modelLoad_absent hahead hm).trans
      (State.beginLoad_pooled (x := { x with phase := .running }) hiso hlimit hfree hclaim))

/-! ### MODEL_EVICT, zeroing and decay (R58, R59, R62, R63) -/

section
variable (hahead : s.evictAhead x (fld (x.w 2) 0 10) = false)
include hahead

theorem State.modelEvict_absent (hm : s.model? x.ten (fld (x.w 2) 0 10) = none) : s.modelEvict x = s.finish x.id stDone 1 := by
  simp [State.modelEvict, hahead, hm]

theorem State.modelEvict_free {m : Model} (hm : s.model? x.ten (fld (x.w 2) 0 10) = some m) (hres : m.resident = true)
    (hfree : ∀ y ∈ s.cp.ctxs.takeWhile fun y => y.id ≠ x.id, y.fn = x.fn → y.phase ≠ .done → s.handleOf y ≠ some (fld (x.w 2) 0 10)) :
    s.modelEvict x =
      ((((s.withToy fun y => { y with models := y.models.set (x.ten, fld (x.w 2) 0 10) (some { m with pinned := false }) }).dropModel
        (x.ten, fld (x.w 2) 0 10) m).finish x.id stDone 0)).toyPump := by
  have hbusy : (!m.resident || (s.cp.ctxs.takeWhile fun y => y.id ≠ x.id).any fun y =>
      decide (y.fn = x.fn) && decide (y.phase ≠ .done) && s.handleOf y == some (fld (x.w 2) 0 10)) = false := by
    rw [hres, Bool.not_true, Bool.false_or, List.any_eq_false]
    intro y hy
    have := hfree y hy
    simpa using this
  rw [State.modelEvict]
  simp only [hahead, Bool.false_eq_true, if_false, hm]
  exact if_neg (Bool.eq_false_iff.mp hbusy)

end

theorem State.slotZeroed_zeroing {k : Nat} (hz : (s.toy.slots.get k).st = .zeroing) (hclk : s.rfld .islStatus 0 12 (k / 16) ≠ 0) :
    s.slotZeroed k =
      (s.withToy fun y =>
        { y with
          slots := y.slots.set k { s.toy.slots.get k with st := if (s.toy.slots.get k).owner = none then .empty else .loading }
          bytes := memZero y.bytes (524288 * k) 524288 }).toyPump :=
  if_pos ⟨hz, hclk⟩

/-- Settles O9: each clause is one outcome of its row. -/
theorem modelsLeaveTheirSlots : Obligations.ModelsLeaveTheirSlots := by
  unfold Obligations.ModelsLeaveTheirSlots
  intro s q c h x k m
  refine ⟨fun hb hahead hm => answer_begins hb _ _ (State.modelEvict_absent hahead hm), fun hb hk hahead hm hres hfree => ?evict,
    fun hk hz hclk => answer_to (decide_eq_true hk) (State.slotZeroed_zeroing hz hclk), fun hb => answer_to rfl (if_neg (Nat.not_lt.mpr hb))⟩
  case evict =>
    subst hk
    exact answer_begins hb _ _ (State.modelEvict_free hahead hm hres hfree)

end Sys2Proof.Machine


/-! Page packets (R213 to R217) and the epoch's rows (R65 to R72): O10, O11. -/

namespace Sys2Proof.Machine

/-! ### Page packets -/

section
variable {s : State} {x : Ctx}

/-- A PAGE_ALLOC that gets its pages waits for those it claimed, or completes where it claimed none. -/
theorem State.pageAlloc_taken {t : State} {l : List Nat} (hents : s.entsTaken x.fn (fld (x.w 3) 0 15) (fld (x.w 2) 0 16) = false)
    (hpages : s.allocPages x.id (.map x.fn (fld (x.w 3) 0 15) false) (allocPart x) (x.a 4) (bit (x.w 2) 20) (fld (x.w 2) 0 16) = .ok (t, l)) :
    s.pageAlloc x =
      if t.claimsOf x.id = 0 then (t.updCtx x.id fun y => { y with phase := .running, work := .waits s.now (t.claimsOf x.id) 0 }).allocDone x 0
      else t.updCtx x.id fun y => { y with phase := .running, work := .waits s.now (t.claimsOf x.id) 0 } := by
  simp [State.pageAlloc, hents, hpages]

/-- PAGE_FREE of entries that are all valid and not sealed takes each out of the map. -/
theorem State.pageFree_valid (hents : ∀ j < fld (x.w 2) 0 16,
      (s.mem.maps.get (x.fn, fld (x.w 3) 0 15 + j)).valid = true ∧ (s.mem.maps.get (x.fn, fld (x.w 3) 0 15 + j)).sealed = false) :
    s.pageFree x =
      ((List.range (fld (x.w 2) 0 16)).foldl (fun t j => t.unmapIf x.fn fun e => e == fld (x.w 3) 0 15 + j) s).finish x.id stDone
        (w32 (fld (x.w 2) 0 16)) := by
  have hvalid : (((List.range (fld (x.w 2) 0 16)).map fun i => s.mem.maps.get (x.fn, fld (x.w 3) 0 15 + i)).any fun e => !e.valid) = false := by
    simpa using fun j hj => (hents j hj).1
  have hsealed : (((List.range (fld (x.w 2) 0 16)).map fun i => s.mem.maps.get (x.fn, fld (x.w 3) 0 15 + i)).any fun e => e.sealed) = false := by
    simpa using fun j hj => (hents j hj).2
  exact (if_neg (Bool.eq_false_iff.mp hvalid)).trans (if_neg (Bool.eq_false_iff.mp hsealed))

end

/-- Settles O10: each packet begins with its own effect. -/
theorem pagePacketsComplete : Obligations.PagePacketsComplete := by
  unfold Obligations.PagePacketsComplete
  rintro s q c h x n i rfl rfl
  refine ⟨fun t l hb hents hpages hclaims => ?done, fun t l hb hents hpages hclaims => ?waits, fun hb hents => ?free,
    fun hb => answer_begins hb _ _ rfl, fun hb hdev => ?fromDevice, fun hb hdev => ?fromHost⟩
  case done =>
    refine answer_begins hb _ _ ((State.pageAlloc_taken hents hpages).trans ?_)
    rw [if_pos hclaims, hclaims]
  case waits => exact answer_begins hb _ _ ((State.pageAlloc_taken hents hpages).trans (if_neg hclaims))
  case free => exact answer_begins hb _ _ (congrArg State.areaGuard (State.pageFree_valid hents))
  case fromDevice => exact answer_begins hb _ _ (by rw [State.memCopyBegin, if_pos hdev])
  case fromHost => exact answer_begins hb _ _ (by rw [State.memCopyBegin, if_neg (Bool.eq_false_iff.mp hdev)])

/-! ### The epoch -/

section
variable {s : State}

theorem State.openEpoch_closed (h : s.epochOpen = false) :
    s.openEpoch = ({ s with rf := { s.rf with shadow := [] } } : State).rput .epochCtrl 0 0 1 :=
  if_neg (Bool.eq_false_iff.mp h)

/-- A 32-bit write of a register with RWE fields that lies alone in its double word. -/
theorem State.rweRow_narrow {o m : Nat} {r : Reg} (v : W64) (hup : s.barUp 0 = true) (hthr : s.through 0 o = true) (ho : o % 4 = 0)
    (hn : (s.locAt 0 (o / 8 * 8)).wide = false) (hl : s.locAt 0 o = .reg r false) (hw : wrOf r.n = .rwe m) :
    s.rweRow o 4 v = s.rweWrite r m (v.toNat % 2 ^ 32) := by
  have hr : isRwe r.n = true := by simp [isRwe, hw]
  have hdirect : s.vfShared r = false ∨ 0 ≠ 0 ∧ s.pfWrote? (.inl r) = none := .inl (State.vfShared_of_rwe hr)
  have hrow : s.rweRow o 4 v = s.bar0Write 0 o 4 v [] := by
    unfold State.rweRow
    simp only [hn, Bool.false_eq_true, if_false, hl, hr, if_true]
  rw [hrow, State.bar0Write, hthr, hup, Bool.true_or, Bool.and_true, if_pos rfl, State.busWrite_word ho, State.writeWord_narrow hn, hl]
  exact (State.regWrite_direct hdirect).trans (State.regPut_rwe_pf hw)

theorem State.holdExpiry_out {cm : Commit} (hc : s.cp.commit = some cm) (hd : cm.drain = true) (ht : s.rnat .epochHold ≤ ticks cm.begun s.now) :
    s.holdExpiry = s.epochRefuse 6 := by
  rw [State.holdExpiry, hc]
  exact if_pos ⟨hd, ht⟩

/-- An EPOCH_COMMIT whose checks pass: PENDING, with what was in force of the partitions affected. -/
def State.commitPending (s : State) (x : Ctx) : State :=
  ((s.rput .epochCtrl 0 0 3).updCtx x.id fun y => { y with phase := .running, work := .waits s.now 0 0 }).withCp fun p =>
    { p with commit := some ⟨x.id, s.now, s.nonAtomicChange, s.affectedParts, s.affectedParts.map fun k => (k, s.pstate k)⟩ }

/-- It waits for the boundary, or drains the partitions affected unless the hold limit is 0. -/
theorem State.epochCommit_passes {x : Ctx} (hr : s.commitReason (x.w 2) = none) :
    s.epochCommit x =
      if !s.nonAtomicChange then s.commitPending x
      else if s.rnat .epochHold = 0 then (s.affectedParts.foldl (fun t k => t.rput .pstate k 0 2) (s.commitPending x)).epochRefuse 6
      else s.affectedParts.foldl (fun t k => t.rput .pstate k 0 2) (s.commitPending x) := by
  rw [State.epochCommit, hr]
  rfl

end

/-- Settles O11: each clause is one outcome of its row. -/
theorem epochsOpenCommitAndEnd : Obligations.EpochsOpenCommitAndEnd := by
  unfold Obligations.EpochsOpenCommitAndEnd
  refine ⟨fun s hreach => ⟨fun hc => ?opens, fun ho hp => ?abandons, fun o m r v hthr h4 hn hl hw ho hp => ?shadows,
    fun o m r v hthr h4 hn hl hw hc => ?discards, fun cm hrun hcm hd ht => ?holdLimit⟩, ?commits⟩
  case opens => exact answer_reached hreach.2 hreach.1 _ (State.openEpoch_closed hc)
  case abandons => exact answer_reached hreach.2 hreach.1 _ (State.abandonEpoch_open ho hp)
  case shadows =>
    exact answer_to rfl ((State.rweRow_narrow v hreach.2 hthr h4 hn hl hw).trans (State.rweWrite_open ho hp))
  case discards =>
    exact answer_to rfl ((State.rweRow_narrow v hreach.2 hthr h4 hn hl hw).trans (State.rweWrite_discarded (by simp [hc])))
  case holdLimit => exact answer_to rfl ((State.onCp_runs hrun _).trans (State.holdExpiry_out hcm hd ht))
  case commits =>
    rintro s _ q c h x hb hr rfl
    refine ⟨fun hatomic => ?_, fun hdrain hlimit => ?_⟩
    · exact answer_begins hb _ _ ((State.epochCommit_passes hr).trans (if_pos (by rw [hatomic]; rfl)))
    · exact answer_begins hb _ _ ((State.epochCommit_passes hr).trans ((if_neg (by simp [hdrain])).trans (if_neg hlimit)))

end Sys2Proof.Machine


/-! The beginning of matrix packets (R117 to R121, R127, R142) and the layer packets (R140, R141): O12, O13. -/

namespace Sys2Proof.Machine

section
variable {s t : State} {x : Ctx} {h : HostData}

/-! ### MATMUL and GATE_ONLY -/

/-- A matrix command with its gate program: the program is held, and its tiles are ready. -/
def State.tilesReady (u : State) (x : Ctx) (prog : List W8) : State :=
  (u.updCap x.id fun k => { k with prog := prog }).updCtx x.id fun y =>
    { y with phase := .running, begunAt := u.now, work := .tiles x.tileCount 0 [] false }

/-- A command whose gate program is paid for and read: it counts a use of its model, if it uses one. -/
theorem State.matGo_program {prog : List W8} (hpay : s.pay x (if x.a 12 = 0 then 0 else stackBytes (x.a 12) 64) = (t, true))
    (hprog : (t.meetOp x.fn (x.a 12) (if x.a 12 = 0 then 0 else 64)).gateProgram x h = .ok prog) :
    s.matGo x h =
      (if usesModel x then (t.meetOp x.fn (x.a 12) (if x.a 12 = 0 then 0 else 64)).useModel x.ten (fld (x.w 2) 0 10)
        else t.meetOp x.fn (x.a 12) (if x.a 12 = 0 then 0 else 64)).tilesReady x prog := by
  rw [State.matGo, State.gate_paid hpay]
  simp only [hprog]
  split <;> rfl

theorem State.matBegin_ready (hw : x.work = .none) {m : Model} (hu : usesModel x = true) (hm : s.modelState x (fld (x.w 2) 0 10) = .ready m)
    (hsize : x.w 3 + weightBytes x ≤ m.size) : s.matBegin x h = s.matGo x h := by
  simp [State.matBegin, hw, hu, hm, Nat.not_lt.mpr hsize]

theorem State.matBegin_memory (hw : x.work = .none) (hu : usesModel x = false) : s.matBegin x h = s.matGo x h := by
  simp [State.matBegin, hw, hu]

theorem usesModel_matmul (hop : x.op = 0x20) : usesModel x = !bit (x.w 2) 10 := by simp [usesModel, hop]

theorem usesModel_gateOnly (hop : x.op = 0x21) : usesModel x = false := by simp [usesModel, hop]

end

/-- Settles O12: the weights' source decides whether a use is counted; the rest is one path. -/
theorem matrixPacketsMakeTheirTilesReady : Obligations.MatrixPacketsMakeTheirTilesReady := by
  unfold Obligations.MatrixPacketsMakeTheirTilesReady
  rintro s t _ q c h x prog _ rfl hpay rfl hprog
  have hgo := State.matGo_program hpay hprog
  refine ⟨?model, ?memory, ?gateOnly⟩
  case model =>
    rintro m _ hb hbit hm hsize rfl
    obtain ⟨-, -, -, hop, -, hw⟩ := id hb
    have hu : usesModel x = true := by rw [usesModel_matmul hop, hbit]; rfl
    rw [if_pos hu] at hgo
    exact answer_begins hb _ _ ((State.matBegin_ready hw hu hm hsize).trans hgo)
  case memory =>
    rintro _ hb hbit rfl
    obtain ⟨-, -, -, hop, -, hw⟩ := id hb
    have hu : usesModel x = false := by rw [usesModel_matmul hop, hbit]; rfl
    rw [if_neg (Bool.eq_false_iff.mp hu)] at hgo
    exact answer_begins hb _ _ ((State.matBegin_memory hw hu).trans hgo)
  case gateOnly =>
    rintro _ hb rfl
    obtain ⟨-, -, -, hop, -, hw⟩ := id hb
    have hu : usesModel x = false := usesModel_gateOnly hop
    rw [if_neg (Bool.eq_false_iff.mp hu)] at hgo
    exact answer_begins hb _ _ ((State.matBegin_memory hw hu).trans hgo)

/-! ### LAYER_SET and LAYER_READ -/

section
variable {s t : State} {x : Ctx} {h : HostData}

theorem State.layerSet_valid {img : List W8} (hpay : s.pay x (stackBytes (x.a 4) 16) = (t, true))
    (hread : (t.meetOp x.fn (x.a 4) 16).opRead x.fn h (x.a 4) 16 = .ok img) (hok : imageBad (fld (x.w 2) 0 10) img = none) :
    s.layerSet x h =
      ({ t.meetOp x.fn (x.a 4) 16 with
          qn := { (t.meetOp x.fn (x.a 4) 16).qn with
            pend := (t.meetOp x.fn (x.a 4) 16).qn.pend ++ [PendLayer.mk x.id x.ten (fld (x.w 2) 0 10) img] } } : State).updCtx x.id fun y =>
        { y with phase := .running, work := .waits s.now 0 0 } := by
  rw [State.layerSet, State.gate_paid hpay]
  simp only [hread, hok]

theorem State.layerRead_taken {r : MatCap} {u : State} (hc : s.cap? x.id = some r) (hpay : s.pay x (stackBytes (x.a 4) 64) = (t, true))
    (hw : t.opWrite x.fn (x.a 4) r.rec_.bytes = (u, none)) : s.layerRead x = u.finish x.id stDone 0 := by
  rw [State.layerRead, State.gate_paid hpay]
  simp only [hc, hw]

/-- LAYER_READ takes its record at its dispatch (R141). -/
theorem State.onDispatch_layerRead (hop : x.op = 0x23) : s.onDispatch x = s.layerTake x := by
  simp [State.onDispatch, hop]

theorem State.cap?_layerTake : (s.layerTake x).cap? x.id = some (MatCap.fresh 0 false none (s.layerRec x.ten (fld (x.w 2) 0 10)) oneF []) := by
  unfold State.layerTake
  split <;> simp [State.cap?, State.updLayer, State.setCap]

theorem State.layerRec_layerTake :
    (s.layerTake x).layerRec x.ten (fld (x.w 2) 0 10) =
      if x.sub = 1 then { s.layerRec x.ten (fld (x.w 2) 0 10) with probeAmax := 0, satTotal := 0 } else s.layerRec x.ten (fld (x.w 2) 0 10) := by
  unfold State.layerTake
  split
  · simp [State.layerRec, State.updLayer, State.setCap]
  · simp [State.layerRec, State.setCap]

end

/-- Settles O13: the image is held, the record is taken at dispatch and written at the beginning. -/
theorem layerPacketsComplete : Obligations.LayerPacketsComplete := by
  unfold Obligations.LayerPacketsComplete
  rintro s t q c h x _ rfl
  refine ⟨?set, fun u r hb hc hpay hw => answer_begins hb _ _ (State.layerRead_taken hc hpay hw), ?take, fun hop => ?taken⟩
  case set =>
    rintro img _ hb hpay rfl hread hok
    exact answer_begins hb _ _ (State.layerSet_valid hpay hread hok)
  case take =>
    rintro _ r hop rfl hr
    rw [State.onDispatch_layerRead hop] at hr ⊢
    obtain rfl := Option.some.inj (State.cap?_layerTake.symm.trans hr)
    exact ⟨rfl, State.layerRec_layerTake⟩
  case taken => rw [State.onDispatch_layerRead hop, State.cap?_layerTake, Option.isSome_some]

end Sys2Proof.Machine


/-! Table packets (R155 to R161, R173, R177, R180, R181): definition, retirement, flush, statistics, gathers and row writes; O14, O15, O16. -/

namespace Sys2Proof.Machine

section
variable {s t : State} {x : Ctx} {h : HostData}

/-! ### TABLE_DEFINE -/

/-- The table of a descriptor, its pages dealt to its parts, is being defined by a command. -/
def State.tableDefining (w : State) (x : Ctx) (d : Desc) (ps : List Nat) : State :=
  let nh := cdiv d.t1 512
  let nd := cdiv (16 * d.blocks) 2097152
  w.withEmb fun e => { e with tabs := e.tabs.set (x.ten, fld (x.w 2) 0 10) (some
    { d := d, home := ps.take nh, dirPages := (ps.drop nh).take nd, promo := (ps.drop (nh + nd)).take d.promo
      repl := ps.drop (nh + nd + d.promo), defining := some x.id }) }

/-- A valid descriptor of a group of one device that finds its pages: the table is ready, or waits until its pages are zero. -/
theorem State.tableDefine_taken {u w : State} {b : List W8} {ps : List Nat} {d : Desc} (hpay : s.pay x (stackBytes (x.a 4) 64) = (t, true))
    (hu : u = t.meetOp x.fn (x.a 4) 64) (hread : u.opRead x.fn h (x.a 4) 64 = .ok b) (hres : ofBytes b &&& descReserved = 0)
    (hone : (Desc.parse b).group = 1) (hok : u.descOk (Desc.parse b) (groupAddr b) = true)
    (hfree : u.emb.tabs.get (x.ten, fld (x.w 2) 0 10) = none) (hd : d = { Desc.parse b with members := [0] })
    (hpages : u.allocPages x.id (.dev x.ten) (x.part.getD 0) d.chans false
      (cdiv d.t1 512 + cdiv (16 * d.blocks) 2097152 + d.promo + d.repl) = .ok (w, ps)) :
    s.tableDefine x h =
      if (w.tableDefining x d ps).claimsOf x.id = 0 then (w.tableDefining x d ps).tableReady x else (w.tableDefining x d ps).beginWait x 0 0 := by
  subst hu hd
  dsimp only at hpages
  have hdesc : (!(t.meetOp x.fn (x.a 4) 64).descOk (Desc.parse b) (groupAddr b) || ((Desc.parse b).group != 1 &&
      (!(t.meetOp x.fn (x.a 4) 64).extOk x.fn (offOf (groupAddr b)) (4 * (Desc.parse b).group) ||
        (t.meetOp x.fn (x.a 4) 64).extSealed x.fn (offOf (groupAddr b)) (4 * (Desc.parse b).group)))) = false := by
    simp [hok, hone]
  rw [State.tableDefine, State.gate_paid hpay]
  dsimp only
  rw [hread]
  refine (if_neg (not_not.mpr hres)).trans ((if_neg (Bool.eq_false_iff.mp hdesc)).trans ((if_pos hone).trans ?_))
  rw [if_pos hone, hfree, if_neg (by decide)]
  rw [hpages]
  rfl

end

/-- Settles O14: by the path of a descriptor that is in order. -/
theorem tableDefinitionsTakeTheirPages : Obligations.TableDefinitionsTakeTheirPages := by
  unfold Obligations.TableDefinitionsTakeTheirPages
  rintro s t u w q c h x b ps d _ _ _ hb hpay hu hread hres hone hok hfree hd rfl rfl hpages rfl
  have hdef := State.tableDefine_taken hpay hu hread hres hone hok hfree hd hpages
  exact ⟨fun hnone => answer_begins hb _ _ (hdef.trans (if_pos hnone)), fun hsome => answer_begins hb _ _ (hdef.trans (if_neg hsome))⟩

/-! ### TABLE_RETIRE, TABLE_FLUSH and TABLE_STATS -/

section
variable {s t u : State} {x : Ctx} {sh : Shard} (hsh : s.tableFor x (fld (x.w 2) 0 10) = some sh)
include hsh

/-- A write-back job of a table's dirty blocks begins (R173). -/
def State.beginJob (s : State) (x : Ctx) (sh : Shard) : State :=
  (s.withEmb fun e => { e with jobs := e.jobs ++ [⟨x.id, x.ten, fld (x.w 2) 0 10, sh.dirtyBlocks, 0, 0, 0, none⟩] }).beginUnits x (.memCopy 0)
    sh.dirtyBlocks.length

theorem State.tableRetire_idle (hidle : (s.startRetire x (fld (x.w 2) 0 10)).tableBusy x (fld (x.w 2) 0 10) = false) :
    s.tableRetire x =
      if x.sub = 1 ∧ sh.dirtyBlocks ≠ [] then (s.startRetire x (fld (x.w 2) 0 10)).beginJob x sh
      else ((s.startRetire x (fld (x.w 2) 0 10)).dropTable x.ten (fld (x.w 2) 0 10)).finish x.id stDone 0 := by
  rw [State.tableRetire, hsh]
  exact if_neg (Bool.eq_false_iff.mp hidle)

theorem State.tableFlush_known : s.tableFlush x = s.beginJob x sh := by
  rw [State.tableFlush, hsh]
  rfl

theorem State.tableStats_paid
    (hpay : s.pay x (stackBytes (x.a 4) (if x.sub = 0 then sh.statBytes s.now
      else ((List.range 64).map fun i => toBytes 8 (sh.lastChan.get i)).flatten).length) = (t, true))
    (hw : t.opWrite x.fn (x.a 4) (if x.sub = 0 then sh.statBytes s.now
      else ((List.range 64).map fun i => toBytes 8 (sh.lastChan.get i)).flatten) = (u, none)) :
    s.tableStats x = u.finish x.id stDone 0 := by
  rw [State.tableStats, hsh]
  dsimp only
  rw [State.gate_paid hpay]
  simp only [hw]

end

/-- Settles O15: each clause is one outcome of its row. -/
theorem tablePacketsComplete : Obligations.TablePacketsComplete := by
  unfold Obligations.TablePacketsComplete
  rintro s q c h x _ sh rfl hsh
  refine ⟨fun hb hidle hsub => ?drop, fun hb hidle hsub hdirty => ?writeBack,
    fun hb => answer_begins hb _ _ (congrArg (State.jobPump · x.id) (State.tableFlush_known hsh)), fun t u hb hsub hpay hw => ?stats,
    fun t u l hb hsub hl hpay hw => ?channels⟩
  case drop =>
    exact answer_begins hb _ _ (congrArg (State.jobPump · x.id) ((State.tableRetire_idle hsh hidle).trans (if_neg fun h => hsub h.1)))
  case writeBack =>
    exact answer_begins hb _ _ (congrArg (State.jobPump · x.id) ((State.tableRetire_idle hsh hidle).trans (if_pos ⟨hsub, hdirty⟩)))
  case stats =>
    exact answer_begins hb _ _ (State.tableStats_paid hsh (by rw [if_pos hsub]; exact hpay) (by rw [if_pos hsub]; exact hw))
  case channels =>
    subst hl
    exact answer_begins hb _ _ (State.tableStats_paid hsh (by rw [if_neg hsub]; exact hpay) (by rw [if_neg hsub]; exact hw))

/-! ### GATHER_POOL, ROW_UPDATE and TABLE_LOAD -/

section
variable {s t t0 : State} {x : Ctx} {h : HostData} {sh : Shard}

/-- A gather of bags of one length takes its place among the gathers. -/
def State.gatherPlaced (s : State) (x : Ctx) : State :=
  s.withEmb fun e =>
    { e with
      nextK := s.emb.nextK + 1
      gathers := e.gathers ++ [{ gid := s.emb.nextK, x := x, offs := [], next := 0, rows := .of none, wts := .of 0, skip := [], remote := []
                                 fin := [], cap := MatCap.fresh 0 false none {} 0 [], done := false }] }

/-- GATHER_POOL with bags of one length that passes its checks and needs no layer record. -/
theorem State.gatherBegin_even {n : Nat} (hsh : s.tableFor x (GatherOp.tab x) = some sh) (hbad : s.gatherBad x sh.d (s.inStep x) = none)
    (hone : sh.d.group = 1) (hlen : 0 < GatherOp.bagLen x) (hn : n = GatherOp.bags x * GatherOp.bagLen x) (hmax : n ≤ 16777215)
    (hpool : GatherOp.pool x = 0 → GatherOp.bagLen x = 1)
    (hext : s.check89 x.fn ([⟨4, addrAdd (x.a 4) 0, 8 * n⟩] ++ (if GatherOp.pool x = 4 then [⟨8, addrAdd (x.a 8) 0, 4 * n⟩] else [])) = none)
    (hfmt : ignoresLayer (GatherOp.ofmt x) = true) : s.gatherBegin x h = (s.gatherPlaced x).beginUnits x (.gather 0) n := by
  subst hn
  have hl : GatherOp.bagLen x ≠ 0 := Nat.ne_of_gt hlen
  have hbags : (!rising [] || decide (16777215 < GatherOp.bags x * GatherOp.bagLen x) ||
      (GatherOp.pool x == 0 && !(GatherOp.bagLen x == 1))) = false := by
    have hr : rising [] = true := rfl
    simp only [hr, Bool.not_true, Bool.false_or, Bool.or_eq_false_iff, decide_eq_false_iff_not, Nat.not_lt]
    refine ⟨hmax, ?_⟩
    by_cases hp : GatherOp.pool x = 0
    · simp [hpool hp]
    · simp [hp]
  unfold State.gatherBegin
  simp only [hsh, hbad, hone, gt_iff_lt, Nat.lt_irrefl, false_and, if_false, ne_eq, hl, not_false_eq_true, if_true, hbags, Bool.false_eq_true,
    hfmt, Nat.mul_zero, Nat.sub_zero, hext]
  rfl

theorem State.gatherStart_begun {n : Nat} (hb : s.gatherBegin x h = (s.gatherPlaced x).beginUnits x (.gather 0) n) :
    s.gatherStart x h = ((s.gatherPlaced x).beginUnits x (.gather 0) n).gatherPump s.emb.nextK h := by
  rw [State.gatherStart]
  simp only [hb]
  exact if_neg (Nat.succ_ne_self _)

theorem State.rowUpdateBegin_valid {bs : List W8} {rows : List Nat} {n : Nat} (hsh : s.tableFor x (fld (x.w 2) 0 10) = some sh)
    (hn : n = fld (x.w 3) 0 17) (hext : s.check89 x.fn [⟨6, x.a 6, n * sh.d.pitch⟩] = none)
    (hpay : s.pay x (stackBytes (x.a 4) (8 * n)) = (t0, true)) (ht : t = t0.meetOp x.fn (x.a 4) (8 * n))
    (hread : t.opRead x.fn h (x.a 4) (8 * n) = .ok bs) (hrows : rows = (List.range n).map fun i => natAt bs (8 * i) 8)
    (hin : ∀ r ∈ rows, r < sh.d.rows ∧ (sh.d.group = 1 ∨ sh.d.ownerOf r = sh.d.self)) :
    s.rowUpdateBegin x h =
      (t.withEmb fun e => { e with upds := e.upds ++ [⟨x.id, x.ten, fld (x.w 2) 0 10, .list (rows.map sh.d.localOf), 0, 0, x.begunAt⟩] }).beginUnits
        x (.gather 0) n := by
  subst hn ht hrows
  have hvalid : (((List.range (fld (x.w 3) 0 17)).map fun i => natAt bs (8 * i) 8).any fun r =>
      decide (sh.d.rows ≤ r) || (sh.d.group != 1 && sh.d.ownerOf r != sh.d.self)) = false := by
    rw [List.any_eq_false]
    intro r hr
    obtain ⟨hlt, hown⟩ := hin r hr
    rcases hown with hg | ho
    · simp [Nat.not_le.mpr hlt, hg]
    · simp [Nat.not_le.mpr hlt, ho]
  unfold State.rowUpdateBegin
  simp only [hsh, hext]
  rw [State.gate_paid hpay]
  simp only [hread]
  exact if_neg (Bool.eq_false_iff.mp hvalid)

theorem State.tableLoadBegin_within {first : Nat} (hsh : s.tableFor x (fld (x.w 2) 0 10) = some sh) (hf : first = (x.a 6).toNat % 2 ^ 40)
    (hext : s.check89 x.fn [⟨4, x.a 4, x.w 3 * sh.d.pitch⟩] = none) (hin : first + x.w 3 ≤ sh.d.localRows sh.d.self) :
    s.tableLoadBegin x =
      (s.withEmb fun m => { m with upds := m.upds ++ [⟨x.id, x.ten, fld (x.w 2) 0 10, .run first (x.w 3), 0, 0, x.begunAt⟩] }).beginUnits x
        (if isDev (x.a 4) then s.copyEngine x.fn (x.a 4) else .memCopy 0) (x.w 3) := by
  subst hf
  unfold State.tableLoadBegin
  simp only [hsh, hext]
  exact if_neg (Nat.not_lt.mpr hin)

end

/-- Settles O16: each packet passes its checks and begins its slices. -/
theorem gathersAndRowWritesBegin : Obligations.GathersAndRowWritesBegin := by
  unfold Obligations.GathersAndRowWritesBegin
  intro s q c h x sh
  refine ⟨?gather, ?update, ?load⟩
  case gather =>
    rintro _ n _ _ hb hsh hbad hone hlen hn hmax hpool rfl hext hfmt rfl rfl
    exact answer_begins hb _ _ (State.gatherStart_begun (State.gatherBegin_even hsh hbad hone hlen hn hmax hpool hext hfmt))
  case update =>
    exact fun t0 t bs rows n hb hsh hn hext hpay ht hread hrows hin =>
      answer_begins hb _ _ (State.rowUpdateBegin_valid hsh hn hext hpay ht hread hrows hin)
  case load =>
    rintro first _ hb hsh hf hext hin rfl
    exact answer_begins hb _ _ (State.tableLoadBegin_within hsh hf hext hin)

end Sys2Proof.Machine


/-! Sequence packets (R241 to R247), the engines of family 0x5 (R256), EXCHANGE (R195, R201, R205), sealed pages, key updates and Quisto commands
(R276 to R281, R301): O17 to O22. -/

namespace Sys2Proof.Machine

section
variable {s t : State} {x : Ctx} {h : HostData}

/-! ### SEQ_DEFINE -/

/-- The family of a descriptor, its pages dealt to its pool and its directory, is being defined by a command. -/
def State.famDefining (w : State) (x : Ctx) (d : FamDesc) (ps : List Nat) : State :=
  let m : Fam := { d := d, pool := ps.take d.poolPages, dirPages := ps.drop d.poolPages, defining := some x.id }
  w.withSeq fun k => { k with fams := k.fams.set (x.ten, fld (x.w 2) 0 8) (some m) }

/-- A valid descriptor that finds its pages: the family is ready, or waits until its pages are zero. -/
theorem State.seqDefine_taken {u w : State} {b : List W8} {ps : List Nat} {d : FamDesc} (hpay : s.pay x (stackBytes (x.a 4) 64) = (t, true))
    (hu : u = t.meetOp x.fn (x.a 4) 64) (hread : u.opRead x.fn h (x.a 4) 64 = .ok b) (hres : ofBytes b &&& famReserved = 0)
    (hd : d = FamDesc.parse b) (hok : d.ok = true) (hfree : u.seq.fams.get (x.ten, fld (x.w 2) 0 8) = none)
    (hstreams : u.famStreams d ≤ 4194304)
    (hpages : u.allocPages x.id (.dev x.ten) (x.part.getD 0) d.chans false (d.poolPages + cdiv (16 * d.streams) 2097152) = .ok (w, ps)) :
    s.seqDefine x h =
      if (w.famDefining x d ps).claimsOf x.id = 0 then (w.famDefining x d ps).famReady x else (w.famDefining x d ps).beginWait x 0 0 := by
  subst hu hd
  rw [State.seqDefine, State.gate_paid hpay]
  dsimp only
  rw [hread]
  refine (if_neg (not_not.mpr hres)).trans ((if_neg (by simp [hok])).trans ?_)
  rw [hfree, if_neg (by decide), if_neg (Nat.not_lt.mpr hstreams), hpages]
  rfl

end

/-- Settles O17: by the path of a descriptor that is in order. -/
theorem familyDefinitionsTakeTheirPages : Obligations.FamilyDefinitionsTakeTheirPages := by
  unfold Obligations.FamilyDefinitionsTakeTheirPages
  rintro s t u w _ q c h x b ps d hb hpay hu hread hres hd hok hfree hstreams hpages rfl
  have hdef := State.seqDefine_taken hpay hu hread hres hd hok hfree hstreams hpages
  exact ⟨fun hnone => answer_begins hb _ _ (hdef.trans (if_pos hnone)), fun hsome => answer_begins hb _ _ (hdef.trans (if_neg hsome))⟩

/-! ### SEQ_CHUNK, SEQ_TOUCH and SEQ_RETIRE -/

section
variable {s u : State} {x : Ctx} {m : Fam}

theorem State.seqBegin_ready {mod : Model} (hwork : x.work = .none) (hm : s.fam? x.ten (Chunk.famOf x) = some m)
    (hmod : s.modelState x m.d.handle = .ready mod) (hsize : m.d.offset + 16 * m.d.h * m.d.p + 4 * m.d.h ≤ mod.size) :
    s.seqBegin x = (s.useModel x.ten m.d.handle).updCtx x.id fun y =>
      { y with phase := .running, begunAt := s.now, work := .tiles (cdiv (Chunk.entries x) (Chunk.group x)) 0 [] false } := by
  rw [State.seqBegin, hm]
  dsimp only
  rw [if_neg (not_not.mpr hwork), hmod]
  exact if_neg (Nat.not_lt.mpr hsize)

/-- SEQ_TOUCH of streams none of which is out pages nothing in. -/
theorem State.seqTouch_in {w : Touch} (hm : s.fam? x.ten (fld (x.w 2) 0 8) = some m) (hw : s.touch? x.id = some w)
    (hf : w.fam = fld (x.w 2) 0 8) (ha : x.a 6 = 0) (hpay : s.pay x 0 = (u, true)) (hin : ∀ k ∈ w.list, (m.slots.get k).st ≠ .out) :
    s.seqTouch x =
      (((w.list.foldl (fun t k => t.useSlot x.ten (fld (x.w 2) 0 8) k) u).beginWait x 0 0).withSeq fun k =>
        { k with touches := k.touches.map fun y => if y.id = x.id then { y with begun := true, streams := [], n := 0 } else y }).seqPump := by
  have houts : (w.list.filter fun k => (m.slots.get k).st = .out ∧ (m.slots.get k).entry = none) = [] := by
    rw [List.filter_eq_nil_iff]
    intro k hk
    simp [hin k hk]
  rw [State.seqTouch, hw, hm]
  dsimp only
  rw [if_pos ha, State.gate_paid hpay]
  simp only [if_pos ha, houts, hf, List.dedup_nil, List.take_nil, List.foldl_nil, List.length_nil, Nat.zero_sub, List.take_zero]

theorem State.seqRetire_idle (hm : s.fam? x.ten (fld (x.w 2) 0 8) = some m) (hidle : s.famBusy x (fld (x.w 2) 0 8) = false) :
    s.seqRetire x =
      if x.sub = 1 ∧ m.d.base ≠ 0 ∧ m.dirtySlots ≠ [] then
        (s.updFam x.ten (fld (x.w 2) 0 8) fun k => { k with retiring := some x.id }).beginUnits x (.memCopy 0) m.dirtySlots.length
      else (s.dropFam x.ten (fld (x.w 2) 0 8)).finish x.id stDone 0 := by
  rw [State.seqRetire, hm]
  exact if_neg (Bool.eq_false_iff.mp hidle)

end

/-- Settles O18: each clause is one outcome of its row. -/
theorem sequencePacketsComplete : Obligations.SequencePacketsComplete := by
  unfold Obligations.SequencePacketsComplete
  intro s q c h x m
  refine ⟨fun mod hb hm hmod hsize => ?chunk, fun u w f hb hf hm hw hfam ha hpay hin => ?touch, fun f hb hf hm hidle hsub => ?drop,
    fun f hb hf hm hidle hsub hbase hdirty => ?writeBack⟩
  case chunk =>
    obtain ⟨-, -, -, -, -, hwork⟩ := id hb
    exact answer_begins hb _ _ (State.seqBegin_ready hwork hm hmod hsize)
  case touch =>
    subst hf
    exact answer_begins hb _ _ (State.seqTouch_in hm hw hfam ha hpay hin)
  case drop =>
    subst hf
    exact answer_begins hb _ _ ((State.seqRetire_idle hm hidle).trans (if_neg fun h => hsub h.1))
  case writeBack =>
    subst hf
    exact answer_begins hb _ _ ((State.seqRetire_idle hm hidle).trans (if_pos ⟨hsub, hbase, hdirty⟩))

/-! ### Family 0x5 -/

/-- A packet of family 0x5 waits for the engine of its opcode. -/
theorem answer_intBegin {s : State} {op q c : Nat} {x : Ctx} (hb : s.begins op q c x) (again : State → Ctx → State) :
    answer (packetOk q c) s (s.runCmd op q c (fun t y => t.intBegin y) again) = .next ((s.beginUnits x (intEngine op) 1).keeping s) := by
  obtain ⟨-, -, -, hop, -⟩ := id hb
  exact answer_begins hb _ _ (by rw [State.intBegin, hop])

/-- Settles O19: by the engine of each opcode. -/
theorem intakePacketsWaitForTheirEngines : Obligations.IntakePacketsWaitForTheirEngines := by
  unfold Obligations.IntakePacketsWaitForTheirEngines
  intro s q c h x
  exact ⟨fun hb => answer_intBegin hb _, fun hb => answer_intBegin hb _, fun hb => answer_intBegin hb _, fun hb => answer_intBegin hb _,
    fun hb => answer_intBegin hb _, fun hb => answer_intBegin hb _⟩

/-! ### EXCHANGE -/

theorem State.exchangeTimedOut_silent {s : State} {k : Nat} {y : Xfer} {h : HostData} (hy : s.xfer? k = some y) (hlive : y.st = .live)
    (ht : s.exchTimeout ≤ ticks y.lastRx s.now) : s.exchangeTimedOut k h = s.failXfer k 2 h := by
  rw [State.exchangeTimedOut, hy]
  exact if_pos ⟨hlive, ht⟩

/-- Settles O20: the transfers that EXCHANGE opens are the model's own, and a silent one fails. -/
theorem exchangesOpenTheirTransfers : Obligations.ExchangesOpenTheirTransfers := by
  unfold Obligations.ExchangesOpenTheirTransfers
  intro s s0 s1 q c h x devs
  refine ⟨fun hb h0 hdevs h1 => ?opens, fun k y hy hlive ht => answer_to rfl (State.exchangeTimedOut_silent hy hlive ht)⟩
  case opens =>
    subst h0 hdevs h1
    exact answer_begins hb _ _ rfl

/-! ### Sealed pages and the key store -/

section
variable {s t : State} {x : Ctx}

theorem State.sealAlloc_taken {l : List Nat} (hnone : s.qst.update = none)
    (hents : s.entsTaken x.fn (fld (x.w 3) 0 15) (fld (x.w 2) 0 16) = false)
    (hpages : s.allocPages x.id (.map x.fn (fld (x.w 3) 0 15) true) (allocPart x) (x.a 4) (bit (x.w 2) 20) (fld (x.w 2) 0 16) = .ok (t, l)) :
    s.sealAlloc x =
      (t.beginUnits x (.sealPort 0) (fld (x.w 2) 0 16)).updCtx x.id fun y =>
        { y with work := .units (.sealPort 0) (fld (x.w 2) 0 16) 0 0 (t.claimsOf x.id) 0 } := by
  simp [State.sealAlloc, hnone, State.sealGo, hents, hpages]

theorem State.sealFree_sealed (hents : ∀ j < fld (x.w 2) 0 16,
      (s.mem.maps.get (x.fn, fld (x.w 3) 0 15 + j)).valid = true ∧ (s.mem.maps.get (x.fn, fld (x.w 3) 0 15 + j)).sealed = true) :
    s.sealFree x =
      ((List.range (fld (x.w 2) 0 16)).foldl (fun t j => t.unmapIf x.fn fun e => e == fld (x.w 3) 0 15 + j) s).finish x.id stDone
        (w32 (fld (x.w 2) 0 16)) := by
  refine if_neg (Bool.eq_false_iff.mp (List.any_eq_false.mpr fun j hj => ?_))
  obtain ⟨hv, hs⟩ := hents j (List.mem_range.mp hj)
  simp [hv, hs]

theorem State.keyUpdate_drawn {v : Nat} (hnone : s.qst.update = none) (hseal : s.anySealed = false) (hfuse : s.qst.fuse < 512)
    (hent : s.entFailed 0 = false) (hdraw : s.drawMod (2 ^ 256) = (v, t)) :
    s.keyUpdate x =
      (t.withQst fun k => { k with
        update := some (x.id, BitVec.ofNat 256 v), reqs := k.reqs.set 0 1, seeded := k.seeded.set 0 t.now }).beginWait x 0 0 := by
  rw [State.keyUpdate, hnone, hseal, if_neg (by decide), if_neg (by decide), if_neg (Nat.not_le.mpr hfuse), hent, if_neg (by decide), hdraw]

end

/-- Settles O21: the pages, the drawn key, and what the key store answers. -/
theorem sealAndKeyPacketsComplete : Obligations.SealAndKeyPacketsComplete := by
  unfold Obligations.SealAndKeyPacketsComplete
  rintro s q c h x _ _ rfl rfl
  refine ⟨fun t l hb hnone hents hpages => answer_begins hb _ _ (State.sealAlloc_taken hnone hents hpages),
    fun hb hents => answer_begins hb _ _ (State.sealFree_sealed hents),
    fun v t hb hnone hseal hfuse hent hdraw => answer_begins hb _ _ (State.keyUpdate_drawn hnone hseal hfuse hent hdraw), ?ok, ?verify, ?fuse⟩
  case ok =>
    rintro id srk _ hu rfl
    exact answer_to rfl (by rw [State.keyComplete, hu])
  case verify =>
    rintro id srk _ hu rfl
    exact answer_to rfl (by rw [State.keyComplete, hu])
  case fuse =>
    rintro id srk _ hu rfl
    exact answer_to rfl (by rw [State.keyComplete, hu])

/-! ### Quisto commands -/

/-- A Quisto packet that passes its checks begins its slices. -/
theorem answer_quistoBegin {s t u : State} {op q c : Nat} {x : Ctx} {l : List Nat} {ps : List QParam} (hc : s.qCheck x = .ok (t, l, ps))
    (hu : u = (t.withQst fun k => { k with jobs := k.jobs ++ [QJob.mk x.id l ps false 0 0] }).beginUnits x (.quisto (s.unitOf x)) (qSlices x l ps))
    (again : State → Ctx → State) (hb : s.begins op q c x) :
    answer (packetOk q c) s (s.runCmd op q c (fun v y => v.quistoBegin y) again) = .next (u.keeping s) :=
  answer_begins hb _ _ (by rw [State.quistoBegin, hc, hu])

/-- Settles O22: the eleven rows begin alike. -/
theorem quistoPacketsBeginTheirSlices : Obligations.QuistoPacketsBeginTheirSlices := by
  unfold Obligations.QuistoPacketsBeginTheirSlices
  intro s t u q c h x l ps hc hu
  exact ⟨answer_quistoBegin hc hu _, answer_quistoBegin hc hu _, answer_quistoBegin hc hu _, answer_quistoBegin hc hu _,
    answer_quistoBegin hc hu _, answer_quistoBegin hc hu _, answer_quistoBegin hc hu _, answer_quistoBegin hc hu _,
    answer_quistoBegin hc hu _, answer_quistoBegin hc hu _, answer_quistoBegin hc hu _⟩

end Sys2Proof.Machine


/-! Queues, event rings and partition controls of the host (R8, R21, R23, R39, R41, R42, R107, R306, R317, R318): O24, O25, O29. -/

namespace Sys2Proof.Machine

/-! ### Rows of the host that the CP carries out -/

/-- The answer of a register access that reaches the device while the CP's clock runs. -/
theorem answer_reached_cp {s t : State} {fn : Nat} {b : Bool} (hb : b = true) (h : s.barUp fn = true) (hrun : s.runs 29) (f : State → State)
    (e : f s = t) : answer b s (s.fromHostCp fn f) = .next (t.keeping s) :=
  answer_reached h hb _ ((State.onIsland_runs hrun f).trans e)

/-! ### Queues (R23, R41, R42) -/

section
variable {s : State} {fn q : Nat} (hreach : s.reaches fn q = true) (hidle : s.qResetting q = false)
include hreach hidle

/-- A queue that starts afresh: enabled and running, its counts zero, nothing of it in flight or held. -/
def State.startQueue (s : State) (q : Nat) : State :=
  s.updQueue q fun Q =>
    { Q with enable := true, mode := .running, cause := 0, head := 0, tail := 0, done := 0, reads := [], holds := [], openSid := none, grant := 0 }

theorem State.queueEnable_disabled (hbound : s.ownerBound q = true) (hmode : (s.queue q).mode = .disabled) :
    s.queueEnable fn q =
      match (s.startQueue q).queueCheck q with
      | some (c, a) => (s.startQueue q).faultQueue q c a
      | none => s.startQueue q := by
  rw [State.queueEnable, hreach, hbound, hidle, hmode]
  rfl

theorem State.queueEnable_passes (hbound : s.ownerBound q = true) (hmode : (s.queue q).mode = .disabled)
    (hc : (s.startQueue q).queueCheck q = none) : s.queueEnable fn q = s.startQueue q := by
  rw [State.queueEnable_disabled hreach hidle hbound hmode, hc]

theorem State.queueEnable_faults (hbound : s.ownerBound q = true) (hmode : (s.queue q).mode = .disabled) {c : Nat} {a : W64}
    (hc : (s.startQueue q).queueCheck q = some (c, a)) : s.queueEnable fn q = (s.startQueue q).faultQueue q c a := by
  rw [State.queueEnable_disabled hreach hidle hbound hmode, hc]

theorem State.queueDisable_enabled (hen : (s.queue q).enable = true) (hno : ¬((s.queue q).mode = .faulted ∧ (s.queue q).cause = 2)) :
    s.queueDisable fn q =
      State.drain 65 (s.updQueue q fun Q =>
        { Q with
          enable := false, reads := [], holds := [], cause := 0, grant := 0
          mode := if Q.inflight = 0 then .disabled else .stopping }).release q := by
  rw [State.queueDisable]
  simp only [hreach, hidle, hen, decide_eq_false hno, Bool.not_true, Bool.or_self, Bool.false_eq_true, if_false]

theorem State.queuePause_written (v : Bool) : s.queuePause fn q v = s.updQueue q fun Q => { Q with pause := v } := by
  rw [State.queuePause, hreach, hidle]
  rfl

/-- A FAULTED queue resumes; after a refused base or size only where the check passes now. -/
theorem State.queueRestart_faulted (hmode : (s.queue q).mode = .faulted)
    (hc : (s.queue q).cause = 3 ∨ (s.queue q).cause = 4 → s.queueCheck q = none) :
    s.queueRestart fn q = State.drain 65 (s.updQueue q fun Q => { Q with mode := .running, cause := 0 }) q := by
  rw [State.queueRestart, hreach, hidle, hmode]
  refine (if_neg (by decide)).trans ?_
  split
  · next h => rw [hc h]
  · rfl

end

/-- Settles O24: the four rows on one queue. -/
theorem queueControlsAct : Obligations.QueueControlsAct := by
  unfold Obligations.QueueControlsAct
  intro s s1 fn q v hfn hrun hq hreach hidle
  have hok : (fnOk fn && queueOk q) = true := by rw [hfn.1, Bool.true_and]; exact decide_eq_true hq
  refine ⟨fun h1 hbound hmode => ?enable, fun hen hno => ?disable, ?pause, fun hmode h3 h4 => ?restart, fun hmode _ hc => ?recheck⟩
  case enable =>
    subst h1
    exact ⟨fun hc => answer_reached_cp hok hfn.2 hrun _ (State.queueEnable_passes hreach hidle hbound hmode hc),
      fun c a hc => answer_reached_cp hok hfn.2 hrun _ (State.queueEnable_faults hreach hidle hbound hmode hc)⟩
  case disable => exact answer_reached_cp hok hfn.2 hrun _ (State.queueDisable_enabled hreach hidle hen hno)
  case pause => exact answer_reached_cp hok hfn.2 hrun _ (State.queuePause_written hreach hidle v)
  case restart =>
    exact answer_reached_cp hok hfn.2 hrun _ (State.queueRestart_faulted hreach hidle hmode fun h => absurd h (not_or.mpr ⟨h3, h4⟩))
  case recheck => exact answer_reached_cp hok hfn.2 hrun _ (State.queueRestart_faulted hreach hidle hmode fun _ => hc)

/-! ### Queue ranges and event rings (R21, R39) -/

section
variable {s : State}

theorem State.queueRangeWrite_free {k v : Nat}
    (hover : ∀ j < 64, j ≠ k → 0 < fld v 16 12 → 0 < (s.qRange j).2 → overlap (fld v 0 14) (fld v 16 12) (s.qRange j).1 (s.qRange j).2 = false)
    (hidle : ∀ e ∈ s.cp.queues.ents, s.owner e.1 = vf k → e.2.mode = .disabled)
    (hin : ∀ p, s.tenPart k = some p →
      s.rfld .queues 0 14 p ≤ fld v 0 14 ∧ fld v 0 14 + fld v 16 12 ≤ s.rfld .queues 0 14 p + s.rfld .queues 16 15 p) :
    s.queueRangeWrite k v = s.rput .queueRange k 0 (fld v 0 14 + fld v 16 12 * 65536) := by
  have hclash : ((List.range 64).any fun j => j ≠ k && decide (0 < fld v 16 12) && decide (0 < (s.qRange j).2) &&
      overlap (fld v 0 14) (fld v 16 12) (s.qRange j).1 (s.qRange j).2) = false := by
    rw [List.any_eq_false]
    intro j hj
    have := hover j (List.mem_range.mp hj)
    simpa using this
  have hactive : (s.cp.queues.ents.any fun e => s.owner e.1 = vf k && e.2.mode ≠ .disabled) = false := by
    rw [List.any_eq_false]
    intro e he
    have := hidle e he
    simpa using this
  unfold State.queueRangeWrite
  simp only [hclash, hactive, Bool.false_or]
  cases hp : s.tenPart k with
  | none => rfl
  | some p =>
    obtain ⟨hlo, hhi⟩ := hin p hp
    simp [hlo, hhi]

theorem State.evqEnable_passes {fn : Nat} (hoff : s.rbit .evqCtrl 0 fn = false) (hlo : 6 ≤ s.rfld .evqCtrl 8 5 fn)
    (hhi : s.rfld .evqCtrl 8 5 fn ≤ 16)
    (hring : s.ringOk fn (ringAddr (s.rget ⟨.evqBase, fn, 0⟩)) (32 * 2 ^ s.rfld .evqCtrl 8 5 fn) = true) :
    s.evqEnable fn = ((s.rput .evqHead fn 0 0).rput .evqTail fn 0 0).rsetFld .evqCtrl 0 1 1 fn := by
  simp [State.evqEnable, hoff, Nat.not_lt.mpr hlo, Nat.not_lt.mpr hhi, hring]

theorem State.evqEnableRow_vf {fn : Nat} (hfn : fn ≠ 0) : s.evqEnableRow fn = s.evqEnable fn := by
  simp [State.evqEnableRow, hfn]

end

/-- Settles O25: the range write, the ring's start, and its head. -/
theorem queueRangesAndEventRingsAreSet : Obligations.QueueRangesAndEventRingsAreSet := by
  unfold Obligations.QueueRangesAndEventRingsAreSet
  intro s fn k v
  refine ⟨fun hk hup hover hidle hin => ?range, fun h0 hup hrun hoff hlo hhi hring => ?start, fun hup hrun hv => ?head⟩
  case range => exact answer_reached hup.2 (decide_eq_true hk) _ (State.queueRangeWrite_free hover hidle hin)
  case start =>
    exact answer_reached_cp hup.1 hup.2 hrun _ ((State.evqEnableRow_vf h0).trans (State.evqEnable_passes hoff hlo hhi hring))
  case head => exact answer_reached_cp hup.1 hup.2 hrun _ (State.evqHeadWrite_between hv)

/-! ### FENCED bits and partition reset (R8, R306, R317, R318) -/

/-- The number whose bits below 4 are those that a test keeps. -/
def keptBits (p : Nat → Bool) : Nat := (List.range 4).foldl (fun m a => if p a then m + 2 ^ a else m) 0

theorem keptBits_lt (p : Nat → Bool) : keptBits p < 16 := by
  simp only [keptBits, show List.range 4 = [0, 1, 2, 3] from rfl, List.foldl_cons, List.foldl_nil]
  split_ifs <;> omega

theorem bit_keptBits (p : Nat → Bool) {a : Nat} (ha : a < 4) : bit (keptBits p) a = p a := by
  simp only [keptBits, show List.range 4 = [0, 1, 2, 3] from rfl, List.foldl_cons, List.foldl_nil]
  interval_cases a <;> cases p 0 <;> cases p 1 <;> cases p 2 <;> cases p 3 <;> rfl

theorem State.fenceClear_bit (s : State) (n v : Nat) {a : Nat} (ha : a < 4) :
    (s.fenceClear n v).rbit .arrayFenced a n = (s.rbit .arrayFenced a n && (!bit v a || s.setThis .arrayFenced n a)) := by
  have hlt := keptBits_lt fun a => bit (s.rnat .arrayFenced n) a && (!bit v a || s.setThis .arrayFenced n a)
  rw [State.rbit, State.fenceClear, State.rnat_rput, if_pos rfl]
  change bit (keptBits _ % 2 ^ 64) a = _
  rw [Nat.mod_eq_of_lt (by omega), bit_keptBits _ ha]
  rfl

/-- A run of changes all but one of which do nothing is that one. -/
theorem foldl_only {α β : Type} (f : β → α → β) (p : α) {l : List α} (hp : p ∈ l) (hl : l.Nodup) (hf : ∀ t, ∀ b ∈ l, b ≠ p → f t b = t) :
    ∀ t, l.foldl f t = f t p := by
  have none_left (l : List α) (hl : p ∉ l) (hf : ∀ t, ∀ b ∈ l, b ≠ p → f t b = t) : ∀ t, l.foldl f t = t := by
    induction l with
    | nil => exact fun _ => rfl
    | cons b l ih =>
      obtain ⟨hb, hl⟩ := not_or.mp (List.mem_cons.not.mp hl)
      intro t
      rw [List.foldl_cons, hf t b List.mem_cons_self (Ne.symm hb), ih hl fun t c hc => hf t c (List.mem_cons_of_mem _ hc)]
  induction l with
  | nil => exact absurd hp List.not_mem_nil
  | cons b l ih =>
    obtain ⟨hb, hl⟩ := List.nodup_cons.mp hl
    have hrest : ∀ t, ∀ c ∈ l, c ≠ p → f t c = t := fun t c hc => hf t c (List.mem_cons_of_mem _ hc)
    intro t
    rw [List.foldl_cons]
    by_cases hbp : b = p
    · subst hbp
      exact none_left l hb hrest _
    · rw [hf t b List.mem_cons_self hbp]
      exact ih ((List.mem_cons.mp hp).resolve_left (Ne.symm hbp)) hl hrest t

/-- A write that names one partition resets that one, unless it is FREE. -/
theorem State.partResetWrite_one (s : State) {p m : Nat} (hp : p < 16) (hm : ∀ b < 16, bit m b = decide (b = p)) :
    s.partResetWrite m = if s.pstate p ≠ 0 then (s.noteSet .partReset p 0).partReset p 2 else s := by
  unfold State.partResetWrite
  rw [foldl_only _ p (List.mem_range.mpr hp) List.nodup_range fun t b hb hbp => ?_]
  · rw [hm p hp]
    simp
  · rw [hm b (List.mem_range.mp hb), decide_eq_false hbp]
    rfl

theorem State.partResetDone_resetting {s : State} {p : Nat} (h : s.pstate p = 4) :
    s.partResetDone p =
      if s.setThis .partReset p 0 then
        ((s.rput .pstate p 0 1).rput .partReset 0 0 (setFld (s.rnat .partReset) p 1 0)).partReset p 2
      else ((s.rput .pstate p 0 1).rput .partReset 0 0 (setFld (s.rnat .partReset) p 1 0)).servesPump :=
  if_neg (not_not.mpr h)

/-- Settles O29: each clause is one outcome of its row. -/
theorem partitionControlsAct : Obligations.PartitionControlsAct := by
  unfold Obligations.PartitionControlsAct
  intro s p n v
  refine ⟨fun hup hp => answer_reached hup.2 (decide_eq_true hp) _ rfl, fun hup hn => ?fenced, fun hup hp hm hs => ?reset,
    fun hup hp hm hs => ?free, ?done⟩
  case fenced =>
    refine ⟨_, answer_reached hup.2 (decide_eq_true hn) _ rfl, fun a ha => s.fenceClear_bit n v.toNat ha, fun r hr => ?_⟩
    rw [State.fenceClear, State.rget_rput, if_neg hr]
  case reset => exact answer_reached hup.2 rfl _ ((s.partResetWrite_one hp hm).trans (if_pos hs))
  case free => exact answer_reached hup.2 rfl _ ((s.partResetWrite_one hp hm).trans (if_neg (not_not.mpr hs)))
  case done =>
    rintro _ hp hs rfl
    exact ⟨fun hno => answer_to (decide_eq_true hp) ((State.partResetDone_resetting hs).trans (if_neg (Bool.eq_false_iff.mp hno))),
      fun hyes => answer_to (decide_eq_true hp) ((State.partResetDone_resetting hs).trans (if_pos hyes))⟩

end Sys2Proof.Machine


/-! Resets that run Windup, the test port, and the stages of Windup (R302, R320, R340, R342 to R349, R365): O30, O31, O32. -/

namespace Sys2Proof.Machine

/-! ### Registers kept over a reset -/

/-- A list of entries cut by a test of their keys: what it lists for a key the test keeps, and nothing for another. -/
theorem Tab.look_filter {κ α : Type} [DecidableEq κ] (p : κ → Bool) (k : κ) (l : List (κ × α)) :
    Tab.look k (l.filter fun e => p e.1) = if p k then Tab.look k l else none := by
  induction l with
  | nil => simp [Tab.look]
  | cons e l ih =>
    obtain ⟨j, v⟩ := e
    by_cases hjk : j = k
    · subst hjk
      cases hp : p j
      · simpa [hp] using ih
      · simp [hp, Tab.look]
    · cases hp : p j
      · simpa [hp, Tab.look, hjk] using ih
      · simpa [hp, Tab.look, hjk] using ih

/-- A register file at its Reset values but for the registers of some names. -/
theorem RegFile.get_kept (f : RegFile) (keep : RegName → Bool) (r : Reg) :
    RegFile.get { RegFile.reset with vals := f.vals.filter fun e => keep e.1.n } r = if keep r.n then f.get r else regReset r := by
  simp only [RegFile.get, assoc?, Tab.look_filter fun r : Reg => keep r.n]
  cases keep r.n <;> rfl

/-! ### Device resets (R348, R349) -/

section
variable (s : State)

/-- Power loss touches the key store and draws a free value, nothing else. -/
theorem State.keyPowerLoss_frame : ∃ n f, s.keyPowerLoss = ({ s with freeN := n } : State).withQst f := by
  unfold State.keyPowerLoss
  split
  · exact ⟨s.freeN, id, rfl⟩
  · exact ⟨s.freeN + 1, _, rfl⟩

theorem State.rget_deviceReset (cfg : Bool) (r : Reg) :
    (s.deviceReset cfg).rget r =
      if r = ⟨.windup, 0, 0⟩ then w64 (1 + s.rfld .windup 16 1 * 65536)
      else if r = ⟨.brake, 0, 0⟩ then w64 (3 + s.rfld .brake 3 1 * 8)
      else if r = ⟨.ptmStatus, 0, 0⟩ then w64 (s.rfld .ptmStatus 0 1)
      else if keepsReset r.n then s.rget r else regReset r := by
  obtain ⟨n, f, hloss⟩ := s.keyPowerLoss_frame
  rw [State.deviceReset, hloss]
  simp only [State.rget, State.resetRegs, RegFile.get_set, RegFile.get_kept]
  rfl

/-- The part of a device reset that is not its registers. -/
theorem State.deviceReset_units (cfg : Bool) :
    (s.deviceReset cfg).win.ready = false ∧ (s.deviceReset cfg).now = s.now ∧ (s.deviceReset cfg).io = s.io ∧
      (s.deviceReset cfg).pending = s.pending ∧ (s.deviceReset cfg).safe = s.safe ∧ (s.deviceReset cfg).cp.ctxs = [] ∧
      (s.deviceReset cfg).mem.bytes = s.mem.bytes ∧ (s.deviceReset cfg).mem.maps = Mem.reset.maps ∧
      (s.deviceReset cfg).win.vfEnable = (cfg && s.win.vfEnable) ∧ (s.deviceReset cfg).win.ptmEnable = (cfg && s.win.ptmEnable) ∧
      (s.deviceReset cfg).win.rrs = !cfg ∧ (s.deviceReset cfg).cp.fns = (if cfg then s.cp.fns else .of FnSt.reset) := by
  obtain ⟨n, f, hloss⟩ := s.keyPowerLoss_frame
  rw [State.deviceReset, hloss]
  exact ⟨rfl, rfl, rfl, rfl, rfl, rfl, rfl, rfl, rfl, rfl, rfl, rfl⟩

/-- WINDUP after a device reset: stage 1, not failed, the image that was booted still shown. -/
theorem State.windup_deviceReset (cfg : Bool) :
    (s.deviceReset cfg).stage = 1 ∧ (s.deviceReset cfg).rbit .windup 3 = false ∧
      (s.deviceReset cfg).rfld .windup 16 1 = s.rfld .windup 16 1 := by
  have hlt : s.rfld .windup 16 1 < 2 ^ 1 := fld_lt _ _ _
  have hw : (s.deviceReset cfg).rnat .windup = 1 + s.rfld .windup 16 1 * 65536 := by
    rw [State.rnat, State.rget_deviceReset, if_pos rfl, w64, BitVec.toNat_ofNat]
    omega
  refine ⟨?_, ?_, ?_⟩
  · rw [State.stage, State.rfld, hw, fld, Nat.shiftRight_zero]
    omega
  · rw [State.rbit, hw, bit, fld, Nat.shiftRight_eq_div_pow]
    simp only [beq_eq_false_iff_ne]
    omega
  · rw [State.rfld, hw, fld, Nat.shiftRight_eq_div_pow]
    omega

theorem State.rget_deviceReset_kept (cfg : Bool) {r : Reg} (hr : keepsReset r.n = true) : (s.deviceReset cfg).rget r = s.rget r := by
  have hname (n : RegName) (hn : keepsReset n = false) (i j : Nat) : r ≠ ⟨n, i, j⟩ := by
    rintro rfl
    rw [hn] at hr
    exact absurd hr (by decide)
  rw [State.rget_deviceReset, if_neg (hname _ rfl _ _), if_neg (hname _ rfl _ _), if_neg (hname _ rfl _ _), if_pos hr]

theorem State.rget_deviceReset_reset (cfg : Bool) {r : Reg} (hr : keepsReset r.n = false) (hp : r.n ≠ .ptmStatus) (hb : r.n ≠ .brake)
    (hw : r.n ≠ .windup) : (s.deviceReset cfg).rget r = regReset r := by
  have hname (n : RegName) (hn : r.n ≠ n) (i j : Nat) : r ≠ ⟨n, i, j⟩ := by
    rintro rfl
    exact hn rfl
  rw [State.rget_deviceReset, if_neg (hname _ hw _ _), if_neg (hname _ hb _ _), if_neg (hname _ hp _ _), if_neg (by simp [hr])]

/-! ### Power-on -/

theorem State.rget_powerOn (r : Reg) :
    s.powerOn.rget r =
      if r = ⟨.windup, 0, 0⟩ then 1 else if r = ⟨.bootPrefer, 0, 0⟩ then s.rget ⟨.bootPrefer, 0, 0⟩ else regReset r := by
  obtain ⟨n, f, hloss⟩ := s.keyPowerLoss_frame
  rw [State.powerOn, hloss]
  simp only [State.rget, RegFile.get_set]
  rfl

theorem State.powerOn_units :
    s.powerOn.win.ready = false ∧ s.powerOn.win.mgmtUp = false ∧ s.powerOn.now = 0 ∧ s.powerOn.mem = Mem.reset ∧ s.powerOn.cp = Cp.reset ∧
      s.powerOn.safe = State.reset.safe ∧ s.powerOn.win.flash = s.win.flash ∧ s.powerOn.win.svnMin = s.win.svnMin ∧
      s.powerOn.qst.fuse = s.keyPowerLoss.qst.fuse := by
  obtain ⟨n, f, hloss⟩ := s.keyPowerLoss_frame
  rw [State.powerOn, hloss]
  exact ⟨rfl, rfl, rfl, rfl, rfl, rfl, rfl, rfl, rfl⟩

theorem State.stage_powerOn : s.powerOn.stage = 1 := by
  rw [State.stage, State.rfld, State.rnat, State.rget_powerOn, if_pos rfl]
  rfl

end

/-! ### Software and management resets -/

section
variable {s : State}

theorem State.softwareReset_none {v : Nat} (h : bit v 0 = false) : s.softwareReset v = s := by simp [State.softwareReset, h]

theorem State.softwareReset_at_once {v : Nat} (h : bit v 0 = true) (hq : bit v 1 = false) : s.softwareReset v = s.deviceReset true := by
  simp [State.softwareReset, h, hq]

theorem State.softwareReset_quiesced {v : Nat} (h : bit v 0 = true) (hq : bit v 1 = true) :
    s.softwareReset v = s.quiesce.deviceReset true := by
  simp [State.softwareReset, h, hq]

theorem State.managementReset_none {n : Nat} (h : s.win.mgmtUp = false ∨ n ≠ 1 ∧ n ≠ 2) : s.managementReset n = s := by
  rcases h with h | ⟨h1, h2⟩
  · simp [State.managementReset, h]
  · simp [State.managementReset, h1, h2]

theorem State.managementReset_one (hup : s.win.mgmtUp = true) : s.managementReset 1 = s.endTrip.deviceReset true := by
  simp [State.managementReset, hup]

theorem State.managementReset_two (hup : s.win.mgmtUp = true) :
    s.managementReset 2 = (if s.win.ready && !s.cp.halted then s.quiesce else s).endTrip.deviceReset true := by
  simp [State.managementReset, hup]

end

/-- Settles O30: each reset is one of the two above, and what they keep is said field by field. -/
theorem resetsBeginWindup : Obligations.ResetsBeginWindup := by
  unfold Obligations.ResetsBeginWindup
  intro s v
  refine ⟨fun h h0 => answer_reached h.2 rfl _ (State.softwareReset_none h0),
    fun h h0 h1 => answer_reached h.2 rfl _ (State.softwareReset_at_once h0 h1),
    fun h h0 h1 => answer_reached h.2 rfl _ (State.softwareReset_quiesced h0 h1), ?trip, fun hup hready hrun => ?managed,
    fun n h => answer_to rfl (State.managementReset_none h), ?quiesce, ?deviceReset, ?powerOn⟩
  case trip =>
    rintro _ rfl
    refine ⟨answer_to rfl rfl, fun hup => answer_to rfl (State.managementReset_one hup), fun hup hstopped => ?_⟩
    refine answer_to rfl ((State.managementReset_two hup).trans ?_)
    rw [if_neg (by rcases hstopped with h | h <;> simp [h])]
    rfl
  case managed =>
    refine answer_to rfl ((State.managementReset_two hup).trans ?_)
    rw [if_pos (by simp [hready, hrun])]
  case quiesce =>
    rintro _ rfl
    rfl
  case deviceReset =>
    rintro cfg _ rfl
    obtain ⟨hstage, hfail, hslot⟩ := s.windup_deviceReset cfg
    obtain ⟨hready, hnow, hio, hpend, hsafe, hctxs, hbytes, hmaps, hvf, hptm, hrrs, hfns⟩ := s.deviceReset_units cfg
    exact ⟨hready, hstage, hfail, hslot, hnow, hio, hpend, hsafe, hctxs, hbytes, hmaps, fun r hr => s.rget_deviceReset_kept cfg hr,
      fun r hr hp hb hw => s.rget_deviceReset_reset cfg hr hp hb hw, hvf, hptm, hrrs, hfns⟩
  case powerOn =>
    obtain ⟨hready, hmgmt, hnow, hmem, hcp, hsafe, hflash, hsvn, hfuse⟩ := s.powerOn_units
    refine ⟨s.powerOn, answer_to rfl rfl, hready, hmgmt, s.stage_powerOn, hnow, hmem, hcp, hsafe, ?_, fun r hp hw => ?_, hflash, hsvn, hfuse⟩
    · rw [State.rget_powerOn, if_neg (by decide), if_pos rfl]
    · have hname (n : RegName) (hn : r.n ≠ n) (i j : Nat) : r ≠ ⟨n, i, j⟩ := by
        rintro rfl
        exact hn rfl
      rw [State.rget_powerOn, if_neg (hname _ hw _ _), if_neg (hname _ hp _ _)]

/-! ### The test port (R365) -/

/-- Settles O31: by the instruction and by whether the device is held. -/
theorem tapInstructionsAct : Obligations.TapInstructionsAct := by
  unfold Obligations.TapInstructionsAct
  intro s i
  exact ⟨fun hi hheld => answer_to rfl ((if_pos hi).trans (if_neg (Bool.eq_false_iff.mp hheld))),
    fun hi hheld => answer_to rfl ((if_pos hi).trans (if_pos hheld)),
    fun hi hid => answer_to rfl ((if_neg hi).trans (if_neg hid)),
    answer_to rfl ((if_neg (by decide)).trans (if_pos rfl))⟩

/-! ### The stages of Windup (R302, R342 to R346) -/

section
variable {s : State}

/-- A row of a stage acts while Windup is in that stage. -/
theorem State.not_inStage_false {k : Nat} (h : s.inStage k = true) : ¬(!s.inStage k) = true := by simp [h]

theorem State.fuseStage_passes (h : s.inStage 1 = true) (hk : (s.withQst Qst.fuseRead).qst.keyOk = true) :
    s.fuseStage true = (s.withQst Qst.fuseRead).endStage 1 := by
  refine (if_neg (State.not_inStage_false h)).trans ?_
  dsimp only
  rw [hk, Bool.and_self, if_pos rfl]

theorem State.selfTest_passes {v0 v1 : W64} {s1 s2 : State} (h : s.inStage 6 = true) (h0 : s.free = (v0, s1)) (h1 : s1.free = (v1, s2)) :
    s.selfTest [] true true =
      ((((s2.seedDrbg 0).seedDrbg 1).withQst fun q => { q with nonce := BitVec.ofNat 128 (v0.toNat + v1.toNat * 2 ^ 64) }).endStage
        6).withWin fun w => { w with failed := [] } := by
  refine (if_neg (State.not_inStage_false h)).trans ((if_neg (by decide)).trans ?_)
  rw [h0]
  dsimp only
  rw [h1]
  rfl

/-- Every enabled link trains; those with good lanes end their training within the stage. -/
theorem leadsTo_linkTrain {u : State} {good : List (Nat × Nat)} (h : s.inStage 5 = true) (hg : (good.all fun e => linkOk e.1) = true)
    (hu : u = (List.range 16).foldl (fun t l => if t.rbit .lnkCtrl 0 l then t.startTraining l false else t)
      (s.rput .lnkDevice 0 0 (s.rfld .mgmtDevnum 0 16))) :
    LeadsTo (.LINK_TRAIN good) s ((good.foldl (fun t g => if g.1 < 16 then t.linkTrainingComplete g.1 g.2 else t) u).endStage 5) := by
  have hrow : s.linkTrain good = (good.foldl (fun t g => if g.1 < 16 then t.linkTrainingComplete g.1 g.2 else t) u).endStage 5 := by
    rw [hu]
    exact if_neg (State.not_inStage_false h)
  exact answer_to hg hrow

/-- READY with no array that failed: the registers named by `keepsReady` stay, the others are at their Reset values. -/
theorem State.goReady_passes (h : s.inStage 7 = true) (hf : s.win.failed = []) :
    s.goReady.win.ready = true ∧ s.goReady.now = s.now ∧ s.goReady.mem = s.mem ∧
      ∃ v, ∀ r, s.goReady.rget r = if r = ⟨.windupTime, 0, 0⟩ then v else if keepsReady r.n then s.rget r else regReset r := by
  rw [State.goReady, if_neg (State.not_inStage_false h), hf]
  refine ⟨rfl, rfl, rfl, w64 (sat (2 ^ 32 - 1) (ticks s.win.began s.now / 1000)), fun r => ?_⟩
  rw [State.rget, State.rget, ← RegFile.get_kept]
  exact RegFile.get_set ..

end

/-- Settles O32: each stage's row, in its stage. -/
theorem windupStagesEnd : Obligations.WindupStagesEnd := by
  unfold Obligations.WindupStagesEnd
  intro s
  refine ⟨fun h hk => answer_to rfl (State.fuseStage_passes h hk), fun h => ?safe, ?boot, fun h => ?trained, fun c hc h => ?badStack, ?links,
    ?oneLink, fun v0 v1 s1 s2 h h0 h1 => answer_to rfl (State.selfTest_passes h h0 h1), fun h hf => ?ready⟩
  case safe => exact answer_to rfl ((if_neg (State.not_inStage_false h)).trans (if_pos rfl))
  case boot =>
    rintro p r1 r2 h rfl rfl rfl
    exact answer_to rfl (if_neg (State.not_inStage_false h))
  case trained => exact answer_to rfl (if_neg (State.not_inStage_false h))
  case badStack => exact answer_to (decide_eq_true hc) (if_neg (State.not_inStage_false h))
  case links => exact fun u h hu => leadsTo_linkTrain h rfl hu
  case oneLink =>
    intro l good u h hl hu
    have hrow := leadsTo_linkTrain (good := [(l, good)]) h (by simp [linkOk, hl]) hu
    rwa [List.foldl_cons, List.foldl_nil, if_pos hl] at hrow
  case ready =>
    obtain ⟨hready, hnow, hmem, v, hregs⟩ := State.goReady_passes h hf
    refine ⟨s.goReady, answer_to rfl rfl, hready, fun r hr => ?_, fun r hr ht => ?_, hnow, hmem⟩
    · rw [hregs, if_neg (by rintro rfl; exact absurd hr (by decide)), if_neg (by simp [hr])]
    · rw [hregs, if_neg (by rintro rfl; exact ht rfl), if_pos hr]

end Sys2Proof.Machine


/-! Function-level resets (R319, R343, R350, R383), firmware and management (R347, R362 to R364), and links (R187 to R189, R192): O33 to O36. -/

namespace Sys2Proof.Machine

/-! ### Function-level resets -/

section
variable {s : State}

/-- The answer of a configuration request that reaches the device. -/
theorem answer_config {t : State} {fn : Nat} {b : Bool} (hb : b = true) (h : s.cfgUp fn = true) (f : State → State) (e : f s = t) :
    answer b s (s.fromConfig fn f) = .next (t.keeping s) :=
  answer_to hb ((if_pos h).trans e)

/-- The answer of a configuration request that meets a device in Windup after a conventional reset. -/
theorem answer_retry {fn : Nat} {b : Bool} (hb : b = true) (hready : s.win.ready = false) (hrrs : s.win.rrs = true)
    (hfail : s.rbit .windup 3 = false) (hheld : s.win.held = false) (hclk : s.runs 28) (f : State → State) :
    answer b s (s.fromConfig fn f) = .next ((s.send (.retry fn)).keeping s) := by
  have hclk : s.clockOn 28 = true := hclk
  have hdown : s.cfgUp fn = false := by simp [State.cfgUp, hready, hrrs, hfail]
  refine answer_to hb ((if_neg (Bool.eq_false_iff.mp hdown)).trans (if_pos ?_))
  simp [hready, hrrs, hfail, hheld, hclk]

theorem State.vfEnableClear_set (h : s.win.vfEnable = true) :
    s.vfEnableClear = ((List.range 64).foldl State.flrVf s).withWin fun w => { w with vfEnable := false } :=
  if_neg (by simp [h])

/-- What ends of the epoch at a reset of the PF: the commit in progress, or the epoch that is open. -/
def State.flrEpoch (s : State) : State :=
  match s.cp.commit with
  | some c => (s.undrain c).closeEpoch stRefused 7
  | none => if s.epochOpen then s.abandonEpoch else s

theorem State.flrEpoch_eq {s2 : State}
    (h : s2 = s.abandonEpoch ∧ s.cp.commit = none ∧ s.epochOpen = true ∨ s2 = s ∧ s.cp.commit = none ∧ s.epochOpen = false ∨
      ∃ c, s.cp.commit = some c ∧ s2 = (s.undrain c).closeEpoch stRefused 7) : s.flrEpoch = s2 := by
  rcases h with ⟨rfl, hc, ho⟩ | ⟨rfl, hc, ho⟩ | ⟨c, hc, rfl⟩
  · simp [State.flrEpoch, hc, ho]
  · simp [State.flrEpoch, hc, ho]
  · simp [State.flrEpoch, hc]

theorem State.flrPf_eq {s1 : State} (h1 : s1 = (List.range 64).foldl State.flrVf s) :
    s.flrPf = (((((s1.flrEpoch.endFn 0).resetFn 0).unmapIf 0 fun _ => true).nvmeOff).toyPump.servesPump).withWin fun w =>
      { w with vfEnable := false, ptmEnable := false } := by
  unfold State.flrPf
  rw [← h1]
  rfl

/-- A drain that waits for a VF's partition is refused at the VF's reset (Table 14.9). -/
def State.flrRefuse (s : State) (k : Nat) : State :=
  if (match s.cp.commit, s.tenPart k with
    | some c, some p => c.drain && c.affected.contains p
    | _, _ => false) then s.epochRefuse 7
  else s

theorem State.flrRefuse_eq {k : Nat} {s1 : State}
    (h : s1 = s ∧ (∀ c p, s.cp.commit = some c → s.tenPart k = some p → (c.drain && c.affected.contains p) = false) ∨
      s1 = s.epochRefuse 7 ∧ ∃ c p, s.cp.commit = some c ∧ s.tenPart k = some p ∧ c.drain = true ∧ c.affected.contains p = true) :
    s.flrRefuse k = s1 := by
  rcases h with ⟨rfl, hno⟩ | ⟨rfl, c, p, hc, hp, hd, ha⟩
  · unfold State.flrRefuse
    cases hc : s1.cp.commit with
    | none => rfl
    | some c =>
      cases hp : s1.tenPart k with
      | none => rfl
      | some p => exact if_neg (Bool.eq_false_iff.mp (hno c p hc hp))
  · rw [State.flrRefuse, hc, hp]
    exact if_pos ((Bool.and_eq_true _ _).mpr ⟨hd, ha⟩)

/-- The tenant's registers return to their Reset values, and its balances read 0. -/
def State.resetTenant (s : State) (k : Nat) : State :=
  (List.range 4).foldl (fun u j => u.rput .tenBalView k j 0)
    ({ s with rf := { s.rf with vals := s.rf.vals.filter fun e => !(tenReset e.1.n && e.1.i == k) } } : State)

theorem State.flrVf_eq {k : Nat} {s1 : State} (h1 : s.flrRefuse k = s1) :
    s.flrVf k =
      (((((((s1.dropFences k).endFn (k + 1)).dropTenant k).resetFn (k + 1)).resetTenant k).noteRecovery k stFlr
        (s.cp.ctxs.filter fun x => x.fn = k + 1 ∧ x.phase ≠ .done).length).servesPump).toyPump := by
  have hfn : vf k = k + 1 := rfl
  subst h1
  unfold State.flrVf
  rw [hfn]
  extract_lets ended hit s1 s2 s3 f4 s4 s5
  have h1 : s.flrRefuse k = s1 := rfl
  have h3 : s3 = (((s1.dropFences k).endFn (k + 1)).dropTenant k).resetFn (k + 1) := rfl
  have h4 : ({ s3 with rf := { s3.rf with vals := s3.rf.vals.filter fun e => !(tenReset e.1.n && e.1.i == k) } } : State) = s4 := rfl
  rw [h1, ← h3, State.resetTenant, h4]

end

/-- Settles O33: the resets as compositions of what they end, and the retry of a device in Windup. -/
theorem functionResetsAct : Obligations.FunctionResetsAct := by
  unfold Obligations.FunctionResetsAct
  intro s
  refine ⟨?pf, ?vf, fun h hv => answer_config rfl h _ (State.vfEnableClear_set hv), fun h hv => answer_config rfl h _ (if_pos (by simp [hv])),
    fun hready hrrs hfail hheld hclk => ⟨answer_retry rfl hready hrrs hfail hheld hclk _, answer_retry rfl hready hrrs hfail hheld hclk _,
      fun k hk => answer_retry (decide_eq_true hk) hready hrrs hfail hheld hclk _⟩⟩
  case pf =>
    intro s1 s2 s4 h h1 h2 h4
    have hrow := State.flrPf_eq h1
    rw [State.flrEpoch_eq h2, ← h4] at hrow
    exact answer_config rfl h _ hrow
  case vf =>
    intro k s1 s3 s5 hk h h1 h3 h5
    have hrow := State.flrVf_eq (State.flrRefuse_eq h1)
    rw [← h3, State.resetTenant, ← h5] at hrow
    exact ⟨answer_config (decide_eq_true hk) h _ hrow, hrow⟩

/-! ### Firmware -/

/-- A device that is ready and held by the test port at once, its booted image of security version 1. -/
def readyAndHeld : State :=
  { State.reset with
    rf := State.reset.rf.set ⟨.bootStatus, 0, 0⟩ 0x100
    win := { State.reset.win with ready := true, held := true, svnMin := 0 } }

/-- SVN_MIN after a command's answer. -/
def svnAfter (r : Host.Outcome State Fault Refusal) : Nat :=
  match r with
  | .next t => t.win.svnMin
  | _ => 0

/-- Refutes O34: where the test port holds a ready device, SVN_COMMIT does not reach the SAFE block, and SVN_MIN stays. -/
theorem not_firmwareIsUpdated : ¬ Obligations.FirmwareIsUpdated := by
  unfold Obligations.FirmwareIsUpdated
  intro h
  obtain ⟨hsvn, -⟩ := h readyAndHeld 1 0 0 0 []
  have hto := hsvn ⟨by decide +kernel, by decide +kernel⟩ (by decide +kernel) (by decide +kernel) (by decide +kernel)
  have hmin : svnAfter (exec (.SVN_COMMIT 1) readyAndHeld) = 1 := by
    rw [show exec (.SVN_COMMIT 1) readyAndHeld = _ from hto]
    rfl
  exact absurd hmin (by decide +kernel)

/-! ### Management -/

/-- The answer of the management endpoint once it responds. -/
theorem answer_mgmt {s t : State} {b : Bool} (hup : s.win.mgmtUp = true) (hb : b = true) (f : State → State) (e : f s = t) :
    answer b s (s.mgmt f) = .next (t.keeping s) :=
  answer_to hb ((if_pos hup).trans e)

section
variable {s : State} {v : Nat}

theorem State.setEid_valid (h1 : 1 ≤ v) (h255 : v < 255) : s.setEid v = s.withWin fun w => { w with eid := v } := by
  have hv : v % 256 = v := Nat.mod_eq_of_lt (by omega)
  rw [State.setEid, hv]
  exact if_neg (by omega)

theorem State.sensorRead_known {r : Nat} (h : s.sensor v = some r) : s.sensorRead v = s.send (.mgmt (toBytes 8 r)) := by
  rw [State.sensorRead, h]

end

/-- Settles O35: each request once the endpoint responds. -/
theorem managementAnswers : Obligations.ManagementAnswers := by
  unfold Obligations.ManagementAnswers
  intro s v hup
  exact ⟨fun h1 h255 => answer_mgmt hup (decide_eq_true (by omega)) _ (State.setEid_valid h1 h255),
    fun r hr => answer_mgmt hup rfl _ (State.sensorRead_known hr),
    fun hready => answer_mgmt hup rfl _ (if_neg (Bool.eq_false_iff.mp hready)),
    fun hready => answer_mgmt hup rfl _ (if_pos hready), fun hv => answer_mgmt hup (decide_eq_true hv) _ rfl⟩

/-! ### Links -/

/-- A run of changes none of which does anything. -/
theorem foldl_same {α β : Type} (f : β → α → β) (t : β) : ∀ l : List α, (∀ a ∈ l, f t a = t) → l.foldl f t = t
  | [], _ => rfl
  | a :: l, h => by
    rw [List.foldl_cons, h a List.mem_cons_self]
    exact foldl_same f t l fun b hb => h b (List.mem_cons_of_mem _ hb)

section
variable {s : State} {l : Nat}

theorem State.linkDeviceWrite_idle {n : Nat} (hidle : ∀ k < 16, s.txnsUsed k = []) (hdown : ∀ k < 16, s.linkState k ≠ 3) :
    s.linkDeviceWrite n = s.rput .lnkDevice 0 0 (n % 65536) := by
  have hnone : ((List.range 16).any fun l => s.txnsUsed l ≠ []) = false := by
    rw [List.any_eq_false]
    intro k hk
    simp [hidle k (List.mem_range.mp hk)]
  refine (if_neg (Bool.eq_false_iff.mp hnone)).trans (foldl_same _ _ _ fun k hk => if_neg ?_)
  have hk := hdown k (List.mem_range.mp hk)
  rwa [State.linkState, State.rfld, State.rnat, State.rget_rput, if_neg (by simp), ← State.rnat, ← State.rfld, ← State.linkState]

section
variable {good : Nat} (htrains : s.linkState l = 2)
include htrains

theorem State.linkTrainingComplete_noSignal (hsig : good / 16 % 16 ≠ 0) :
    s.linkTrainingComplete l good = (s.rsetFld .lnkStatus 0 3 1 l).updLink l fun k => { k with trainAt := s.now } :=
  (if_neg (not_not.mpr htrains)).trans (if_pos hsig)

theorem State.linkTrainingComplete_fails (hsig : good / 16 % 16 = 0) (hw : trainWidth good (s.rbit .lnkCtrl 2 l) = none) :
    s.linkTrainingComplete l good = (s.rsetFld .lnkStatus 0 3 4 l).linkEvent l 4 := by
  refine (if_neg (not_not.mpr htrains)).trans ((if_neg (not_not.mpr hsig)).trans ?_)
  rw [hw]

theorem State.linkTrainingComplete_up {w n : Nat} (hsig : good / 16 % 16 = 0) (hw : trainWidth good (s.rbit .lnkCtrl 2 l) = some (w, n)) :
    s.linkTrainingComplete l good =
      ((List.range 4).foldl (fun t m => t.showLane l m)
        (((s.rsetFld .lnkStatus 0 3 3 l).rsetFld .lnkStatus 3 4 w l).updLink l fun k =>
          { ({} : Link) with
            lanes := (List.range 4).foldl (fun t m => t.upd m fun a => a.trained (s.rnat .fecCorr l m)) k.lanes
            lastCtl := s.now, lane0 := n, trainAt := k.trainAt })).linkEvent l 4 := by
  refine (if_neg (not_not.mpr htrains)).trans ((if_neg (not_not.mpr hsig)).trans ?_)
  rw [hw]

end

end

/-- Settles O36: each clause is one outcome of its row. -/
theorem linksTrainAndFail : Obligations.LinksTrainAndFail := by
  unfold Obligations.LinksTrainAndFail
  intro s l h hl
  have hok : linkOk l = true := decide_eq_true hl
  exact ⟨fun hup hoff => answer_reached hup.2 hok _ (if_neg (Bool.eq_false_iff.mp hoff)),
    fun hup hon => answer_reached hup.2 hok _ (if_neg (by simp [hon])),
    fun v hup hidle hdown => answer_reached hup.2 rfl _ (State.linkDeviceWrite_idle hidle hdown),
    fun good w n hrun ht hsig hw => answer_runs hrun hok _ (State.linkTrainingComplete_up ht hsig hw),
    fun good hrun ht hsig hw => answer_runs hrun hok _ (State.linkTrainingComplete_fails ht hsig hw),
    fun good hrun ht hsig => answer_runs hrun hok _ (State.linkTrainingComplete_noSignal ht hsig),
    fun hrun h1 hen hlong => answer_runs hrun hok _ ((if_pos ⟨h1, hen, hlong⟩).trans (if_pos rfl)),
    fun hrun h1 hen hlong => answer_runs hrun hok _ ((if_pos ⟨h1, hen, hlong⟩).trans (if_neg (by decide))),
    fun hrun h3 hn => answer_runs hrun hok _ (if_pos ⟨h3, hn⟩), fun hrun h3 ht => answer_runs hrun hok _ (if_pos ⟨h3, ht⟩),
    fun hrun h3 => answer_runs hrun hok _ (if_pos h3)⟩

end Sys2Proof.Machine


/-! NVMe (R358 to R361): O38. -/

namespace Sys2Proof.Machine

section
variable {s : State}

theorem State.areaEnable_ok {v : Nat} (hv : bit v 16 = true) (hok : s.areaOk (fld v 0 15) true = true) :
    s.areaEnable v = (s.rput .nvmeCtrl 0 0 (setFld (s.rnat .nvmeCtrl) 0 15 (fld v 0 15))).rsetFld .nvmeCtrl 16 1 1 :=
  (if_neg (by simp [hv])).trans (if_pos hok)

theorem State.areaEnable_refused {v : Nat} (hv : bit v 16 = true) (hok : s.areaOk (fld v 0 15) true = false) :
    s.areaEnable v =
      ((s.rput .nvmeCtrl 0 0 (setFld (s.rnat .nvmeCtrl) 0 15 (fld v 0 15))).rsetFld .nvmeCtrl 16 1 0).nvmeEvent 1 0xFF :=
  (if_neg (by simp [hv])).trans (if_neg (by simp [hok]))

theorem State.driveCfg_enables {d v : Nat} (hold : bit (s.rnat .nvmeCfg d) 0 = false) (hv : bit v 0 = true)
    (harea : s.rbit .nvmeCtrl 16 = true) (h1 : 1 ≤ fld v 2 7) (h64 : fld v 2 7 ≤ 64) (hdepth : 1 ≤ fld v 9 10) (hbar : s.rnat .nvmeBar d ≠ 0) :
    s.driveCfg d v =
      (((s.rput .nvmeCfg d 0 (setFld (v &&& 0xFFFF007FFFFE) 0 1 0)).rput .nvmeCfg d 0 (setFld (v &&& 0xFFFF007FFFFE) 0 1 0 + 1)).zeroDrive d
        (fld v 2 7) (fld v 9 10 + 1)).withEmb fun e =>
          { e with nvq := e.nvq.keep fun k _ => !(k.1 = d), nvTurn := e.nvTurn.clear d } :=
  (if_neg (by simp [hold])).trans ((if_neg (by simp [hv])).trans (if_pos (by simp [harea, h1, h64, hdepth, hbar])))

theorem State.areaAccess_drive {rid off len : Nat} {wr : Option (List W8)} (hrid : s.driveRid rid = true) :
    s.areaAccess rid off len wr = if s.withinArea off len then s.bar4 0 off len wr else s.areaDeny len wr :=
  if_pos hrid

/-- Where no line holds an error, a read meets none. -/
theorem State.meetExt_clean {fn a n : Nat} (h : s.mem.errs = []) : s.meetExt fn a n = s :=
  if_pos (.inl h)

/-- A good completion entry of a far operation other than a read completes it. -/
theorem State.nvmeCompletion_done {d y q' : Nat} {h : HostData} {e : List W8} {s1 : State} {o : FarOp} {q : NvQ} (herrs : s.mem.errs = [])
    (harea : s.rbit .nvmeCtrl 16 = true) (hdrv : s.rbit .nvmeCfg 0 d = true) (hy : 1 ≤ y) (hpairs : y ≤ s.qpairs d)
    (hq : q = s.emb.nvq.get (d, y)) (hn : q' = (q.head + 1) % s.qdepth d)
    (hread : s.devRead 0 (s.areaAddr (33554432 + 16384 * (d * 64 + y - 1) + 16 * q.head)) 16 = .ok e)
    (hphase : fld (natAt e 12 4) 16 1 = q.phase) (hst : fld (natAt e 12 4) 17 15 = 0) (hlate : q.late.contains (fld (natAt e 12 4) 0 16) = false)
    (h1 : s1 = ((s.withEmb fun m =>
        { m with nvq := m.nvq.upd (d, y) fun v => { v with head := q', phase := if q' = 0 then 1 - v.phase else v.phase } }).nvBell d y 1 q'))
    (hfind : (s1.emb.far.find? fun o => o.k = fld (natAt e 12 4) 0 16 ∧ o.outstanding ∧ o.drive = d ∧ o.qp = some y) = some o)
    (hkind : o.kind ≠ .read) :
    s.nvmeCompletion d y h = (((s1.leavePair o).farDone o []).farWaiting).embPump h := by
  subst hq hn h1
  refine (if_neg (by simp [harea, hdrv]; omega)).trans ?_
  dsimp only
  rw [State.meetExt_clean herrs, hread]
  dsimp only
  rw [if_neg (by simp [hphase]), hlate, hfind]
  simp [hst, hkind]

end

/-- Settles O38, a clause for each outcome of the rows of the NVMe area and of its drives. -/
theorem nvmeCommandsAct : Obligations.NvmeCommandsAct := by
  unfold Obligations.NvmeCommandsAct
  intro s v w d on hd
  have hok : driveOk d = true := decide_eq_true hd
  refine ⟨fun i h hi hv ha => ?_, fun i h hi hv ha => ?_, fun new h hold hv harea h1 h64 hdepth hbar hnew _ => ?_,
    fun h => answer_reached h.2 hok _ rfl, fun rid off len wr h hrid hdrv hin => ?_, fun rid off len wr h hrid hdrv hin => ?_,
    fun y q n e s1 o h hrun herrs harea hdrv hy h64 hpairs hq hn hread hphase hst hlate h1 hfind hkind => ?_⟩
  · subst hi
    exact answer_reached h.2 rfl _ (State.areaEnable_ok hv ha)
  · subst hi
    exact answer_reached h.2 rfl _ (State.areaEnable_refused hv ha)
  · subst hnew
    exact answer_reached h.2 hok _ (State.driveCfg_enables hold hv harea h1 h64 hdepth hbar)
  · exact answer_reached h.2 (decide_eq_true hrid) _ ((State.areaAccess_drive hdrv).trans (if_pos hin))
  · exact answer_reached h.2 (decide_eq_true hrid) _ ((State.areaAccess_drive hdrv).trans (if_neg (Bool.eq_false_iff.mp hin)))
  · refine answer_runs hrun (by simp [hok, hy, h64]) (fun t => ((t.nvmeCompletion d y h).seqPump).exchangesPump h) ?_
    exact congrArg (fun t : State => (t.seqPump).exchangesPump h)
      (State.nvmeCompletion_done herrs harea hdrv hy hpairs hq hn hread hphase hst hlate h1 hfind hkind)

end Sys2Proof.Machine


/-! The host link (R351, R354, R356, R357): what an event leaves of the time base, the dialogs of precision time, and completion timeouts; then O40. -/

namespace Sys2Proof.Machine

/-! ### No event moves time -/

theorem State.lineWrite_time {s t : State} {pa : Nat} {bs : List W8} (h : s.lineWrite pa bs = .ok t) : t.now = s.now := by
  unfold State.lineWrite at h
  dsimp only at h
  repeat' split at h
  all_goals cases h
  all_goals rfl

theorem State.devWriteGo_time (k : Nat) : ∀ (s : State) (fn a : Nat) (bs : List W8), (State.devWriteGo k s fn a bs).1.now = s.now := by
  induction k with
  | zero => intros; rfl
  | succ k ih =>
    intro s fn a bs
    cases bs with
    | nil => rfl
    | cons b l =>
      simp only [State.devWriteGo]
      split
      · rfl
      · split
        · rfl
        · next hw => rw [ih, State.lineWrite_time hw]

theorem State.opWrite_time {s t : State} {fn : Nat} {a : W64} {bs : List W8} {o : Option Fail} (h : s.opWrite fn a bs = (t, o)) :
    t.now = s.now := by
  have ht : t = (s.opWrite fn a bs).1 := by rw [h]
  subst ht
  unfold State.opWrite
  split
  · exact State.devWriteGo_time ..
  · split
    · rfl
    · split
      · rfl
      · split <;> rfl

theorem State.ringWrite_time {s t : State} {fn : Nat} {a : W64} {bs : List W8} {o : Option Fail} (h : s.ringWrite fn a bs = (t, o)) :
    t.now = s.now := by
  unfold State.ringWrite at h
  split at h
  · cases h
    rfl
  · next h4 =>
    split at h
    · next h0 =>
      cases h
      rw [State.opWrite_time h0, State.opWrite_time h4]
    · cases h
      rfl

section
variable (s : State)

theorem State.logPut_time (l : LogRec) : (s.logPut l).now = s.now := by
  unfold State.logPut
  dsimp only
  split <;> rfl

theorem State.logWrite_time (a : W64) : (s.logWrite a).now = s.now := by
  unfold State.logWrite
  split
  · rfl
  · exact s.logPut_time _

theorem State.putEvent_time (fn : Nat) (e : EvRec) (w : W64) : (s.putEvent fn e w).now = s.now := by
  unfold State.putEvent
  dsimp only
  split
  · next hw => exact (State.ringWrite_time hw :)
  · next hw => exact (State.ringWrite_time hw :)
  · next hw => exact (State.logWrite_time _ _).trans (State.ringWrite_time hw)

theorem State.eventAt_time (fn : Nat) (e : EvRec) (w : W64) : (s.eventAt fn e w).now = s.now := by
  unfold State.eventAt
  dsimp only
  split
  · rfl
  · split
    · split
      · rfl
      · exact s.putEvent_time fn e w
    · exact s.putEvent_time fn e w

theorem State.event_time (fn : Nat) (e : EvRec) : (s.event fn e).now = s.now := by
  unfold State.event
  split
  · rfl
  · split
    · rfl
    · exact s.eventAt_time fn e s.now

theorem State.hostEvent_time (code d0 d1 d2 : Nat) : (s.hostEvent code d0 d1 d2).now = s.now := s.event_time 0 _

end

/-! ### Dialogs of precision time (R356, R357) -/

section
variable {s : State}

/-- Where the time base is not stepped, no boundary is reached. -/
theorem State.ptmRow_unstepped {m : Option W64} {t : State} (h : s.ptmDialog m = t) (hnow : t.now = s.now) : s.ptmRow m = t := by
  unfold State.ptmRow
  rw [h]
  exact if_neg fun hn => hn.1 hnow

theorem State.ptmDialog_early {m : Option W64} (h : s.ptmDue = false) : s.ptmDialog m = s := if_pos (by simp [h])

theorem State.ptmDialog_fails (hdue : s.ptmDue = true) (h : s.win.ptmFails ≠ 9) :
    s.ptmDialog none = s.withWin fun w => { w with ptmFails := w.ptmFails + 1, ptmLast := some s.now } :=
  (if_neg (by simp [hdue])).trans (if_neg fun he => h (Nat.succ.inj he))

theorem State.ptmDialog_tenth (hdue : s.ptmDue = true) (h : s.win.ptmFails = 9) :
    s.ptmDialog none = (s.withWin fun w => { w with ptmFails := 10, ptmLast := some s.now }).hostEvent 0x1602 2 (s.rnat .ptmOffset % 2 ^ 32)
      (s.rnat .ptmOffset / 2 ^ 32) := by
  have hten : (s.withWin fun w => { w with ptmFails := w.ptmFails + 1, ptmLast := some s.now }) =
      s.withWin fun w => { w with ptmFails := 10, ptmLast := some s.now } := by simp [State.withWin, h]
  refine (if_neg (by simp [hdue])).trans ?_
  dsimp only
  rw [hten]
  exact if_pos rfl

theorem State.ptmDialog_answered {m o : W64} (hdue : s.ptmDue = true) (ho : o = m - s.now) {s1 s2 : State}
    (h1 : s1 = (s.rset ⟨.ptmOffset, 0, 0⟩ o).ptmApply m o) (h2 : s2 = s1.withWin fun w => { w with ptmFails := 0, ptmLast := some s1.now }) :
    s.ptmDialog (some m) = if 1000000 < o.toInt.natAbs then s2.hostEvent 0x1602 1 (o.toNat % 2 ^ 32) (o.toNat / 2 ^ 32) else s2 := by
  subst ho h1 h2
  exact if_neg (by simp [hdue])

theorem State.ptmApply_step {m o : W64} (hvalid : s.rbit .ptmStatus 0 = false) (hall : s.allDisabled = true) (hm : s.now.toNat ≤ m.toNat) :
    s.ptmApply m o = { s.rsetFld .ptmStatus 0 1 1 with now := m } :=
  if_pos (by simp [hvalid, hall, hm])

theorem State.ptmApply_slew {m o : W64} (h : s.rbit .ptmStatus 0 = true ∨ s.allDisabled = false ∨ m.toNat < s.now.toNat) :
    s.ptmApply m o = (s.rsetFld .ptmStatus 0 1 1).rsetFld .ptmStatus 8 8
      (BitVec.ofInt 8 (max (-100) (min 100 (roundDiv o.toInt s.ptmMs)))).toNat := by
  refine if_neg ?_
  rcases h with h | h | h
  · simp [h]
  · simp [h]
  · simp [Nat.not_le.mpr h]

/-! ### Completion timeouts (R354) -/

theorem State.ringTimeout_head {q : Nat} {r : RingRead} {rest : List RingRead} (h : (s.queue q).reads = r :: rest) :
    s.ringTimeout q = if s.ctoPast (s.owner q) r.at_ then
      s.logPcie.faultQueue q 1 (addrAdd (s.queue q).ringBase (64 * (r.first.toNat % (s.queue q).entries))) else s := by
  rw [State.ringTimeout, h]

theorem State.ringTimeout_nil {q : Nat} (h : (s.queue q).reads = []) : s.ringTimeout q = s := by rw [State.ringTimeout, h]

theorem State.farCto_found {k : Nat} {h : HostData} {o : FarOp}
    (hf : (s.emb.far.find? fun o => o.k = k ∧ o.kind = .read ∧ o.outstanding ∧ o.qp = none) = some o) :
    s.farCto k h = if s.ctoPast (vf o.ten) o.issued then (s.logPcie.farFailed o false 0).embPump h else s := by
  rw [State.farCto, State.farReadComplete, hf]

theorem State.pageCto_found {k : Nat} {o : PageOp} (hf : (s.seq.ops.find? fun o => o.k = k ∧ o.outstanding ∧ !o.out) = some o) :
    s.pageCto k = if s.ctoPast (vf o.ten) o.issued then s.pageInDone k none else s := by
  rw [State.pageCto, hf]

theorem State.hostLinkChange_new {rate width : Nat} {flit : Bool} {d : Nat} (hd : d = rate % 16 + width % 32 * 16 + b01 flit * 512)
    (h : d ≠ s.win.hostLink) :
    s.hostLinkChange rate width flit = (s.hostEvent 0x1601 d s.win.hostLink 0).withWin fun w => { w with hostLink := d } := by
  subst hd
  exact if_neg h

theorem State.hostLinkChange_same {rate width : Nat} {flit : Bool} {d : Nat} (hd : d = rate % 16 + width % 32 * 16 + b01 flit * 512)
    (h : d = s.win.hostLink) : s.hostLinkChange rate width flit = s := by
  subst hd
  exact if_pos h

/-- While the clocks of island 28 are stopped, a row that acts on it does nothing. -/
theorem answer_stopped {b : Bool} {f : State → State} (hb : b = true) (h : s.clockOn 28 = false) :
    answer b s (s.onIsland 28 f) = .next (s.keeping s) :=
  answer_to hb (if_neg (by simp [h]))

end

/-- Settles O40, row by row: a change of the link, an error, a dialog of precision time by its outcome, and a timeout by the read it names. -/
theorem hostLinkEventsAct : Obligations.HostLinkEventsAct := by
  unfold Obligations.HostLinkEventsAct
  refine fun s => ⟨fun hrun => ⟨fun rate width flit d hd => ⟨fun h => ?_, fun h => ?_⟩, fun fn hfn => ?_, fun fn hfn => ?_, ?dialog,
    fun hdue hf => ?fails, fun hdue hf => ?tenth, fun m h => ?early, fun q h hq => ⟨fun r rest hr hp => ?_, fun r rest hr hp => ?_, fun hr => ?_⟩,
    fun k h o hf => ⟨fun hp => ?_, fun hp => ?_⟩, fun k h o hf => ⟨fun hp => ?_, fun hp => ?_⟩⟩, fun hclk =>
    ⟨fun _ _ _ => answer_stopped rfl hclk, fun _ => answer_stopped rfl hclk, fun q h hq => answer_stopped (decide_eq_true hq) hclk,
      fun fn hfn ur => answer_stopped (decide_eq_true hfn) hclk⟩⟩
  · exact answer_runs hrun rfl _ (State.hostLinkChange_new hd h)
  · exact answer_runs hrun rfl _ (State.hostLinkChange_same hd h)
  · exact answer_runs hrun (decide_eq_true hfn) _ rfl
  · exact answer_runs hrun (decide_eq_true hfn) _ rfl
  case dialog =>
    intro m o u s1 s2 s3 r hdue ho hu hr h1 h2 h3
    have happly : s1 = (s.rset ⟨.ptmOffset, 0, 0⟩ o).ptmApply m o := by
      subst hu hr
      have hbit : (s.rset ⟨.ptmOffset, 0, 0⟩ o).rbit .ptmStatus 0 = s.rbit .ptmStatus 0 := by simp [State.rbit, State.rnat]
      rcases h1 with ⟨rfl, hvalid, hall, hm⟩ | ⟨rfl, h⟩
      · exact (State.ptmApply_step (hbit.trans hvalid) hall hm).symm
      · exact (State.ptmApply_slew (h.imp_left hbit.trans)).symm
    have hd := h3.trans (State.ptmDialog_answered hdue ho happly h2).symm
    exact answer_runs hrun rfl (fun t => t.ptmRow (some m)) (by rw [State.ptmRow, ← hd])
  case fails => exact answer_runs hrun rfl _ (State.ptmRow_unstepped (State.ptmDialog_fails hdue hf) rfl)
  case tenth => exact answer_runs hrun rfl _ (State.ptmRow_unstepped (State.ptmDialog_tenth hdue hf) (State.hostEvent_time ..))
  case early => exact answer_runs hrun rfl _ (State.ptmRow_unstepped (State.ptmDialog_early h) rfl)
  · exact answer_runs hrun (decide_eq_true hq) _ ((State.ringTimeout_head hr).trans (if_pos hp))
  · exact answer_runs hrun (decide_eq_true hq) _ ((State.ringTimeout_head hr).trans (if_neg (by simp [hp])))
  · exact answer_runs hrun (decide_eq_true hq) _ (State.ringTimeout_nil hr)
  · exact answer_runs hrun rfl (fun t => ((t.farCto k h).seqPump).exchangesPump h)
      (congrArg (fun t : State => (t.seqPump).exchangesPump h) ((State.farCto_found hf).trans (if_pos hp)))
  · exact answer_runs hrun rfl (fun t => ((t.farCto k h).seqPump).exchangesPump h)
      (congrArg (fun t : State => (t.seqPump).exchangesPump h) ((State.farCto_found hf).trans (if_neg (by simp [hp]))))
  · exact answer_runs hrun rfl _ ((State.pageCto_found hf).trans (if_pos hp))
  · exact answer_runs hrun rfl _ ((State.pageCto_found hf).trans (if_neg (by simp [hp])))

end Sys2Proof.Machine


/-! Fetch turns, returned reads, dispatch, and back-pressure (R43, R44, R47, R49, R309): O41. -/

namespace Sys2Proof.Machine

section
variable {s : State} {q : Nat}

theorem State.fetchTurn_issues {g : Nat} {qs : List Nat} (hhalt : s.cp.halted = false) (hout : s.readsOut < 256)
    (hqs : qs = (s.cp.queues.ents.map (·.1)).filter s.eligible) (hg : nextAfter s.cp.rotGroup (qs.map s.fetchGroup) = some g)
    (hq : nextAfter (s.cp.rotQueue.get g) (qs.filter fun q => s.fetchGroup q = g) = some q) :
    s.fetchTurn = (s.turnOn q).withCp fun c => { c with rotGroup := g, rotQueue := c.rotQueue.set g q } := by
  subst hqs
  refine (if_neg (by simp [hhalt, hout])).trans ?_
  dsimp only
  rw [hg]
  dsimp only
  rw [hq]

/-- What a read of a ring in host memory that returns does: by parity, then by what the host answered. -/
theorem State.fetchReturn_host {par : Bool} {h : HostData} {r : RingRead} {rest : List RingRead} (hhalt : s.cp.halted = false)
    (hr : (s.queue q).reads = r :: rest) (hdev : isDev ((s.queue q).slotAddr r.first) = false) :
    s.fetchReturn q par h =
      if par then (s.logFault { cls := 14, island := 29, action := 0, queue := q, tenant := whoOf (s.owner q) }).faultQueue q 1
        ((s.queue q).slotAddr r.first)
      else match s.opRead (s.owner q) h ((s.queue q).slotAddr r.first) (64 * r.n) with
        | .error e => s.readFailed q ((s.queue q).slotAddr r.first) e
        | .ok b => (s.updQueue q fun Q => { Q with reads := rest }).acceptAll q h
            ((List.range r.n).map fun i => packetWords (sliceB b (64 * i) 64)) := by
  refine (if_neg (by simp [hhalt])).trans ?_
  dsimp only
  rw [hr]
  dsimp only
  have hmeet : s.meetOp (s.owner q) ((s.queue q).slotAddr r.first) (64 * r.n) = s := if_neg (by simp [hdev])
  rw [hmeet, hdev]
  rfl

/-- A command whose earlier commands let it be dispatched, or be refused by STEP_ABORT. -/
theorem State.dispatchNext_next {x : Ctx} (hrun : s.cpRuns = true) (hx : s.nextFetched q = some x)
    (hf : fenceAhead (earlier (s.qCtxs q) x) = false) (hb : beginAhead (earlier (s.qCtxs q) x) = false) :
    s.dispatchNext q =
      if s.abortedFor x then s.finish x.id stRefused 0
      else if !waitsMet x (earlier (s.qCtxs q) x) then s
      else if (x.op = 0x41 ∧ s.chunk? x.id = none) ∨ (x.op = 0x42 ∧ s.touch? x.id = none) then s.listChecks q [] 65
      else if x.op = 0x41 ∧ !s.seqReady x.id then s
      else (s.updCtx x.id fun y => { y with phase := .dispatched, begunAt := s.now }).onDispatch x := by
  refine (if_neg (by simp [hrun])).trans ?_
  rw [hx]
  exact if_neg (by simp [hf, hb])

/-- The chunk of a SEQ_CHUNK that is ready has been made. -/
theorem State.chunk?_of_seqReady {id : CtxId} (h : s.seqReady id = true) : s.chunk? id ≠ none := by
  intro hn
  simp [State.seqReady, hn] at h

theorem State.dispatchNext_dispatches {x : Ctx} (hrun : s.cpRuns = true) (hx : s.nextFetched q = some x)
    (hf : fenceAhead (earlier (s.qCtxs q) x) = false) (hb : beginAhead (earlier (s.qCtxs q) x) = false) (ha : s.abortedFor x = false)
    (hw : waitsMet x (earlier (s.qCtxs q) x) = true) (htouch : x.op = 0x42 → (s.touch? x.id).isSome = true)
    (hchunk : x.op = 0x41 → s.seqReady x.id = true) :
    s.dispatchNext q = (s.updCtx x.id fun y => { y with phase := .dispatched, begunAt := s.now }).onDispatch x := by
  refine (State.dispatchNext_next hrun hx hf hb).trans ((if_neg (by simp [ha])).trans ((if_neg (by simp [hw])).trans
    ((if_neg ?_).trans (if_neg ?_))))
  · rintro (⟨hop, hn⟩ | ⟨hop, hn⟩)
    · exact State.chunk?_of_seqReady (hchunk hop) hn
    · simpa [hn] using htouch hop
  · rintro ⟨hop, hn⟩
    simp [hchunk hop] at hn

theorem State.onDispatch_other {x : Ctx} (hmat : x.op ≠ 0x20 ∧ x.op ≠ 0x21) (hlayer : x.op ≠ 0x23) : s.onDispatch x = s :=
  (if_neg (by simp [hmat])).trans (if_neg hlayer)

theorem State.onDispatch_layer {x : Ctx} (h : x.op = 0x23) : s.onDispatch x = s.layerTake x :=
  (if_neg (by simp [h])).trans (if_pos h)

theorem State.onDispatch_matrix {x : Ctx} {t : State} (h : x.op = 0x20 ∨ x.op = 0x21) (ht : s.matCapture x = .ok t) : s.onDispatch x = t := by
  rw [State.onDispatch, if_pos h, ht]

theorem State.backpressure_raised {p k : Nat} {hd : Hold} (hp : s.queuePart q = some p)
    (hf : ((s.queue q).holds.find? fun h => h.cause = k) = some hd) (hr : hd.raised = false) (h0 : s.rnat .bpThresh p k ≠ 0)
    (ht : s.rnat .bpThresh p k ≤ ticks hd.since s.now) :
    s.backpressure q k =
      (s.updQueue q fun Q => { Q with holds := Q.holds.map fun j => if j.cause = k then { j with raised := true } else j }).event
        (s.owner q) { code := 0x0202, island := 29, queue := q, d0 := k, d1 := ticks hd.since s.now % 2 ^ 32, d2 := p } := by
  rw [State.backpressure, hp, hf]
  exact if_neg (by simp [hr, h0, ht])

/-- The answer of a row that the Command Processor runs. -/
theorem answer_cp {t : State} {f : State → State} {b : Bool} (hrun : s.cpRuns = true) (hb : b = true) (e : f s = t) :
    answer b s (s.onCp f) = .next (t.keeping s) :=
  answer_to hb ((State.onCp_runs hrun f).trans e)

end

/-- Settles O41, row by row: a dispatch by the opcode of the command, a returned read by its parity. -/
theorem fetchAndDispatchGoOn : Obligations.FetchAndDispatchGoOn := by
  unfold Obligations.FetchAndDispatchGoOn
  intro s q h hrun hq
  have hok : queueOk q = true := decide_eq_true hq
  refine ⟨fun g qs hhalt hout hqs hg hn => answer_cp hrun rfl (State.fetchTurn_issues hhalt hout hqs hg hn), fun r rest b hhalt hr hdev hread => ?_,
    fun r rest hhalt hr hdev => answer_cp hrun hok ((State.fetchReturn_host hhalt hr hdev).trans (if_pos rfl)),
    fun x hx hf hb ha hw => ?dispatch, fun x hx hf hb ha => ?aborted,
    fun p k hd hp hf hr h0 ht => answer_cp hrun hok (State.backpressure_raised hp hf hr h0 ht)⟩
  · refine answer_cp hrun hok ((State.fetchReturn_host hhalt hr hdev).trans ((if_neg Bool.false_ne_true).trans ?_))
    rw [hread]
  case dispatch =>
    have hgo := State.dispatchNext_dispatches hrun hx hf hb ha hw
    refine ⟨fun hop => ?_, fun hop ht => ?_, fun hop hs => ?_, fun hop => ?_, fun t hop ht => ?_⟩
    · simp only [List.mem_cons, List.not_mem_nil, or_false, not_or] at hop
      obtain ⟨h20, h21, h23, h41, h42⟩ := hop
      exact answer_to hok ((hgo (fun e => absurd e h42) (fun e => absurd e h41)).trans (State.onDispatch_other ⟨h20, h21⟩ h23))
    · exact answer_to hok ((hgo (fun _ => ht) (by simp [hop])).trans (State.onDispatch_other (by simp [hop]) (by simp [hop])))
    · exact answer_to hok ((hgo (by simp [hop]) (fun _ => hs)).trans (State.onDispatch_other (by simp [hop]) (by simp [hop])))
    · exact answer_to hok ((hgo (by simp [hop]) (by simp [hop])).trans (State.onDispatch_layer hop))
    · exact answer_to hok ((hgo (by rcases hop with h | h <;> simp [h]) (by rcases hop with h | h <;> simp [h])).trans
        (State.onDispatch_matrix hop ht))
  case aborted => exact answer_to hok ((State.dispatchNext_next hrun hx hf hb).trans (if_pos ha))

end Sys2Proof.Machine


/-! Arrays take work (R97, R110): what starts on an array stays in flight, the choice of a tile, and the self-test; then O43. -/

namespace Sys2Proof.Machine

section
variable {s : State} {k : Nat}

/-! ### A tile that starts is in flight -/

theorem State.arr_updArr (f : Arr → Arr) : (s.updArr k f).arr k = f (s.arr k) := by
  simp [State.arr, State.updArr, State.withEn]

theorem State.radd32_arrs (n : RegName) (i j v : Nat) : (s.radd32 n i j v).en.arrs = s.en.arrs := rfl

theorem State.advanceTile_flies (h : (s.arr k).fly.isSome = true) : ((s.advanceTile k).arr k).fly.isSome = true := by
  unfold State.advanceTile
  split
  · exact h
  · split
    · exact h
    · split
      · exact h
      · split
        · exact h
        · exact (congrArg (·.fly.isSome) (State.arr_updArr _)).trans rfl

theorem State.chooseLook_flies {p sid : Nat} {hd : HostData} (h : (s.arr k).fly.isSome = true) :
    ((s.chooseLook k p sid hd).arr k).fly.isSome = true := by
  unfold State.chooseLook
  dsimp only
  split
  · exact h
  · rwa [State.arr_updArr]

theorem State.noteResponse_arrs (sid p : Nat) : (s.noteResponse sid p).en.arrs = s.en.arrs := by
  unfold State.noteResponse
  split
  · rfl
  · dsimp only
    split <;> rfl

theorem State.startTile_flies {x : Ctx} {ord att : Nat} {sp rp : Bool} {hd : HostData} :
    ((s.startTile k x ord att sp rp hd).arr k).fly.isSome = true := by
  unfold State.startTile
  extract_lets r p c mine ahead cap s1 s2
  obtain ⟨streams, n⟩ := s.tileStreams x cap ord
  refine State.chooseLook_flies (State.advanceTile_flies ?_)
  rw [State.arr, State.noteResponse_arrs]
  split
  · rw [State.radd32_arrs, ← State.arr, State.arr_updArr]
    rfl
  · rw [← State.arr, State.arr_updArr]
    rfl

/-! ### The choice -/

theorem State.takeDue_nil {h : HostData} {b : Bool} (hdue : s.en.due = []) : s.takeDue k h b = none := by
  simp [State.takeDue, State.dueFor, hdue]

/-- Where every candidate of a partition is admitted, an array of it starts the tile chosen of them all. -/
theorem State.takeTile_admitted {p o : Nat} {h : HostData} {x y : Ctx} {s3 : State} (hadm : ∀ c ∈ s.tileCands p, s.admits p (k / 4) c.1 = true)
    (hch : s.chooseTile p (s.arr k).lastSid (s.tileCands p) = some (x, o))
    (h3 : s3 = (s.preemptFor k x.sid).updCtx x.id (fun y => match y.work with
      | .tiles n _ f w => { y with work := .tiles n (o + 1) f w }
      | _ => y))
    (hy : s3.ctx? x.id = some y) :
    s.takeTile k p h = s3.startTile k y o 1 (!s.arrayPass (k / 4) x) false h := by
  have hall : (s.tileCands p).filter (fun c => s.admits p (k / 4) c.1) = s.tileCands p := List.filter_eq_self.mpr hadm
  have hnone : (s.tileCands p).filter (fun c => !s.admits p (k / 4) c.1) = [] := by simpa using hadm
  unfold State.takeTile
  dsimp only
  rw [hall, hnone, List.foldl_nil, hch]
  dsimp only
  generalize hu : (s.preemptFor k x.sid).updCtx x.id _ = u
  have hu3 : u = s3 := hu.symm.trans h3.symm
  rw [hu3, hy]

/-- With nothing due, what an array of a partition takes is a tile. -/
theorem State.takeWork_tile {p : Nat} {h : HostData} (hdue : s.en.due = []) (hp : s.cellPart (k / 4) = some p)
    (hfly : ((s.takeTile k p h).arr k).fly.isSome = true) : s.takeWork k h = s.takeTile k p h := by
  unfold State.takeWork
  rw [hp]
  dsimp only
  rw [State.takeDue_nil hdue, hdue, List.find?_nil]
  exact if_neg (by rw [Option.isNone_iff_eq_none, ← Option.not_isSome_iff_eq_none, hfly]; decide)

theorem State.takeTest_passes {h : HostData} (hpass : s.pass [.bg 0] (s.reserveNs (k / 4)) = true) :
    s.takeTest k h = (s.preempt k 3).startTest k :=
  if_pos hpass

/-- The choice of an array that is free to take work, with nothing due. -/
theorem State.tileDispatch_free {h : HostData} (hfly : (s.arr k).fly = none) (hfence : s.fenced k = false) (hhalt : s.cp.halted = false)
    (hclk : s.rfld .islStatus 0 12 (k / 4) ≠ 0) (hdue : s.en.due = []) :
    s.tileDispatch k h =
      if !s.mayTest k then s.takeWork k h
      else if (s.arr k).again then s.takeTest k h
      else if (s.arr k).claim then s.takeTest k h
      else if (s.roundClaim k).1 then (s.roundClaim k).2.takeTest k h else (s.roundClaim k).2.takeWork k h := by
  refine (if_neg (by simp [hfly, hfence, hhalt, hclk])).trans ?_
  rw [State.takeDue_nil hdue, hdue]
  rfl

theorem State.roundClaim_due : (s.roundClaim k).2.en.due = s.en.due := by
  unfold State.roundClaim
  split <;> rfl

end

/-- Settles O43: an array with nothing due goes to its self-test, or through R97 to the tile chosen. -/
theorem arraysTakeWork : Obligations.ArraysTakeWork := by
  unfold Obligations.ArraysTakeWork
  intro s k p h hk hfly hfence hhalt hclk hdue
  have hok : arrayOk k = true := decide_eq_true hk
  have hfree := State.tileDispatch_free (h := h) hfly hfence hhalt hclk hdue
  refine ⟨fun hclaim hmay hpass => answer_to hok (hfree.trans ((if_neg (by simp [hmay])).trans ?_)), fun s1 x o s3 y hs1 hp hadm hch h3 hy => ?_⟩
  · rw [← State.takeTest_passes (h := h) hpass]
    by_cases hagain : (s.arr k).again = true
    · exact if_pos hagain
    · exact (if_neg hagain).trans (if_pos (hclaim.resolve_right hagain))
  · have htile := State.takeTile_admitted (h := h) hadm hch h3 hy
    have hwork : s1.en.due = [] → s1.takeWork k h = s3.startTile k y o 1 (!s1.arrayPass (k / 4) x) false h := fun hd =>
      (State.takeWork_tile hd hp (by rw [htile]; exact State.startTile_flies)).trans htile
    rcases hs1 with ⟨hmay, hclaim, hagain, hround⟩ | ⟨hmay, rfl⟩
    · have hdue1 : s1.en.due = [] := by
        have hround_due := State.roundClaim_due (s := s) (k := k)
        rw [hround] at hround_due
        exact hround_due.trans hdue
      refine answer_to hok (hfree.trans ((if_neg (by simp [hmay])).trans ((if_neg (by simp [hagain])).trans ((if_neg (by simp [hclaim])).trans ?_))))
      rw [hround]
      exact (if_neg Bool.false_ne_true).trans (hwork hdue1)
    · exact answer_to hok (hfree.trans ((if_pos (by simp [hmay])).trans (hwork hdue)))

end Sys2Proof.Machine


/-! Tiles end (R100 to R102, R130 to R133, R231, R233): O44. -/

namespace Sys2Proof.Machine

section
variable {s : State} {k : Nat} {f : Flight} {h : HostData}

/-! ### Commit -/

/-- What the end of a tile that its array has run does: by what found an error in it. -/
theorem State.tileCommit_tile {id : CtxId} {ord att : Nat} {x : Ctx} {e : TileEnd} {er : TileErr} (hfly : (s.arr k).fly = some f)
    (hready : f.ready = true) (hran : f.ran ≤ 8000) (hclk : s.rfld .islStatus 0 12 (k / 4) ≠ 0) (hjob : f.job = .tile id ord att)
    (hx : s.ctx? id = some x) (he : e = s.tileEnd x f ord er) :
    s.tileCommit k er h = e.found.elim (s.commitTile k f x ord e h) fun r => (s.noteEnd k x.fn e).tileMismatch k x ord att r := by
  unfold State.tileCommit
  rw [hfly]
  dsimp only
  rw [if_neg (by simp [hready, hran, hclk]), hjob]
  dsimp only
  rw [hx]
  dsimp only
  rw [← he]
  cases e.found <;> rfl

theorem State.tileCommit_test {er : TileErr} (hfly : (s.arr k).fly = some f) (hready : f.ready = true) (hran : f.ran ≤ 8000)
    (hclk : s.rfld .islStatus 0 12 (k / 4) ≠ 0) (hjob : f.job = .selftest) : s.tileCommit k er h = s.testDone k er.clean := by
  unfold State.tileCommit
  rw [hfly]
  dsimp only
  rw [if_neg (by simp [hready, hran, hclk]), hjob]

/-- A tile whose writes are paid for and all reach their destinations commits. -/
theorem State.commitTile_paid {x : Ctx} {ord m : Nat} {e : TileEnd} {s0 t : State}
    (hpay : s.payPart x.stackAccts 64 (s.commitBytes x ord e - f.paid) (whoOf x.fn) x.part = (s0, m)) (hm : s.commitBytes x ord e ≤ f.paid + m)
    (hput : (if x.op = 0x41 then s0.seqCommit x h e.seqs else s0.putAll x.fn h e.out) = (t, none)) :
    s.commitTile k f x ord e h =
      (((((t.noteEnd k x.fn e).settle (k / 4) (k % 4) f.charge f.ran).updArr k fun r =>
        { r with fly := none, lastSid := some x.sid }).radd32 .tilesCommitted (k / 4) (k % 4) 1).noteConv x (isWide x) e.stats).tileDone
          x ord (k / 4) := by
  unfold State.commitTile
  dsimp only
  rw [hpay]
  dsimp only
  rw [if_neg (Nat.not_lt.mpr hm), hput]

/-! ### The watchdog -/

theorem State.watchdog_tile {id : CtxId} {ord att : Nat} {x : Ctx} (hfly : (s.arr k).fly = some f) (hran : 8000 ≤ f.ran)
    (hjob : f.job = .tile id ord att) (hx : ((s.abandon k).radd32 .tileWatchdog (k / 4) (k % 4) 1).ctx? id = some x) :
    s.watchdog k =
      (((s.abandon k).radd32 .tileWatchdog (k / 4) (k % 4) 1).updArr k fun a => { a with lastSid := some x.sid }).tilePolicy k x ord att 2 2 := by
  unfold State.watchdog
  rw [hfly]
  dsimp only
  rw [if_neg (Nat.not_lt.mpr hran), hjob]
  dsimp only
  rw [hx]

/-! ### The Feeder -/

/-- What the Feeder fills for the array of a tile in flight: its streams where they want a region, else the lookahead's. -/
theorem State.feederFilled_tile {id : CtxId} {ord att : Nat} {x : Ctx} (hfly : (s.arr k).fly = some f) (hjob : f.job = .tile id ord att)
    (hx : s.ctx? id = some x) :
    s.feederFilled k [] h = if f.streams.any Stream.wants then s.fillTile k f x ord h else s.fillLook k h := by
  rw [State.feederFilled, State.strike, List.foldl_nil, hfly]
  dsimp only
  rw [hjob]
  dsimp only
  rw [hx]

theorem State.feederFilled_test (hfly : (s.arr k).fly = some f) (hjob : f.job = .selftest) : s.feederFilled k [] h = s.fillLook k h := by
  rw [State.feederFilled, State.strike, List.foldl_nil, hfly]
  dsimp only
  rw [hjob]

theorem State.fillTile_fills {x : Ctx} {ord reg : Nat} {t : State} {l : List Stream} (hwin : windows f.streams ≤ 960)
    (hreg : s.freeRegion k = some reg) (hfill : s.fillFirst (k / 4) reg x h f.streams = (t, l, none)) :
    s.fillTile k f x ord h = (t.updArr k fun a => { a with fly := some { f with streams := l } }).advanceTile k := by
  rw [State.fillTile, if_neg (Nat.not_lt.mpr hwin), hreg]
  dsimp only
  rw [hfill]

end

/-- Settles O44, row by row: a commit by what found an error and by what is in flight, a watchdog, a region filled. -/
theorem tilesEnd : Obligations.TilesEnd := by
  unfold Obligations.TilesEnd
  intro s k f h hk hfly
  have hok : arrayOk k = true := decide_eq_true hk
  refine ⟨fun id ord att x e er s0 m t hready hran hclk hjob hx he hfound hpay hm hput => ?commits,
    fun id ord att x e er found hready hran hclk hjob hx he hfound => ?mismatches,
    fun er hready hran hclk hjob => answer_to hok (State.tileCommit_test hfly hready hran hclk hjob),
    fun id ord att x hran hjob hx => answer_to hok (State.watchdog_tile hfly hran hjob hx),
    fun id ord att x reg t l hrun hjob hx hwants hwin hreg hfill => ?fills, fun id ord att x hrun hjob hx hwants => ?looks,
    fun hrun hjob => answer_runs hrun hok _ (State.feederFilled_test hfly hjob)⟩
  case commits =>
    refine answer_to hok ((State.tileCommit_tile hfly hready hran hclk hjob hx he).trans ?_)
    rw [hfound]
    exact State.commitTile_paid hpay hm hput
  case mismatches =>
    refine answer_to hok ((State.tileCommit_tile hfly hready hran hclk hjob hx he).trans ?_)
    rw [hfound]
    rfl
  case fills =>
    exact answer_runs hrun hok _ ((State.feederFilled_tile hfly hjob hx).trans ((if_pos hwants).trans (State.fillTile_fills hwin hreg hfill)))
  case looks => exact answer_runs hrun hok _ ((State.feederFilled_tile hfly hjob hx).trans (if_neg (by simp [hwants])))

end Sys2Proof.Machine


/-! Slices and deadlines (R84, R108, R109, R239), row reads and far-tier operations (R169 to R172, R253): O45 and O46. -/

namespace Sys2Proof.Machine

/-! ### Slices and deadlines -/

section
variable {s : State}

theorem State.sliceEnd_command {e : Engine} {n : Nat} {ok : Bool} {h : HostData} {id : CtxId} (hclk : s.rfld .islStatus 0 12 (engIsland e) ≠ 0)
    (hjob : (s.eng e).job = some id) :
    s.sliceEnd e n ok h = ((s.commitSlice e id n ok h).updEng e fun g => { g with job := none, slice := none }).takeItem e h := by
  rw [State.sliceEnd, if_neg hclk, hjob]

theorem State.sliceEnd_idle {e : Engine} {n : Nat} {ok : Bool} {h : HostData} (hclk : s.rfld .islStatus 0 12 (engIsland e) ≠ 0)
    (hjob : (s.eng e).job = none) (hbg : (s.eng e).bg = false ∨ s.bgWaits e = false) :
    s.sliceEnd e n ok h = (s.updEng e fun g => { g with bg := false }).takeItem e h := by
  rw [State.sliceEnd, if_neg hclk, hjob]
  exact if_neg (by rcases hbg with h | h <;> simp [h])

theorem State.roundOverrun_late (hlog : s.en.roundLogged = false) (ht : 40000000 ≤ ticks s.en.roundAt s.now) :
    s.roundOverrun = (s.withEn fun e => { e with roundLogged := true }).logFault
      { cls := 16, island := 33, action := 0, late := true
        loc := cellLoc (((List.range 64).find? fun k => !s.en.roundDone.contains k && !s.fenced k).getD 0) } :=
  if_neg (by simp [hlog, ht])

/-- The DEADLINE_MISS event of a step, of its commands not done and the stall of the first of them (R239). -/
def missEvent (st : Step) (why open_ first : Nat) : EvRec :=
  { code := 0x1101, island := 29, queue := st.q, stepId := st.stepId, d0 := why + sat 65535 open_ * 65536, d1 := first
    d2 := sat (2 ^ 32 - 1) (st.stalls.foldl (fun n v => n + v.toNat) 0) }

/-- A step that misses its deadline raises its event once, by what is still open in it. -/
theorem State.deadlineMiss_missed {sid : Nat} {st : Step} (hst : s.step? sid = some st) (hex : st.explicit = true) (hrt : st.rt = true)
    (hdl : st.hasDl = true) (hadm : st.admitted = true) (hmiss : st.missRaised = false) (hend : st.ended = none) (hpast : s.passed st.key = true) :
    s.deadlineMiss sid =
      let l := (s.stepCtxs sid).filter fun x => decide (x.phase ≠ .done)
      let u := (s.updStep sid fun k => { k with missRaised := true }).event st.fn
        (missEvent st (match l.head? with
          | some x => (match s.stallCause x with
            | some c => c + 16
            | none => 0)
          | none => 0) l.length (match l.head? with
          | some x => x.id.c.toNat
          | none => 0))
      match tenantOf st.fn with
      | some t => u.radd32 .rtMisses t 0 1
      | none => u := by
  rw [State.deadlineMiss, hst]
  refine (if_neg (by simp [hex, hrt, hdl, hadm, hmiss, hend, hpast])).trans ?_
  rfl

end

/-- Settles O45, a clause for each outcome of a slice's end, of a round's overrun, and of a missed deadline. -/
theorem slicesAndDeadlinesEnd : Obligations.SlicesAndDeadlinesEnd := by
  unfold Obligations.SlicesAndDeadlinesEnd
  refine fun s => ⟨fun e n ok h id he hclk hjob => answer_to he (State.sliceEnd_command hclk hjob),
    fun e n ok h he hclk hjob hbg => answer_to he (State.sliceEnd_idle hclk hjob hbg),
    fun hper hlog ht => answer_to rfl ((if_pos hper).trans (State.roundOverrun_late hlog ht)),
    fun sid st hrun hst hex hrt hdl hadm hmiss hend hpast hnil hten => ?closed,
    fun sid st x rest c k hrun hst hex hrt hdl hadm hmiss hend hpast hcons hcause hten => ?stalled⟩
  case closed =>
    refine answer_cp hrun rfl ((State.deadlineMiss_missed hst hex hrt hdl hadm hmiss hend hpast).trans ?_)
    rw [hnil, hten]
    rfl
  case stalled =>
    refine answer_cp hrun rfl ((State.deadlineMiss_missed hst hex hrt hdl hadm hmiss hend hpast).trans ?_)
    rw [hcons, hten]
    dsimp only [List.head?_cons]
    rw [hcause]
    rfl

/-! ### Row reads and far-tier operations -/

section
variable {s : State} {k : Nat} {h : HostData}

theorem State.meetPhys_clean {pa n : Nat} (herrs : s.mem.errs = []) : s.meetPhys pa n = s := if_pos (.inl herrs)

theorem State.rowReadComplete_gather {r : RowRead} {sh : Shard} {l gid j : Nat} {bs : List W8} (hrepl : r.repl = none)
    (hf : (s.emb.reads.find? fun r => r.k = k ∧ !r.far) = some r) (hsh : s.table? r.ten r.tab = some sh) (hl : sh.loc (r.row / sh.d.rpb) = some l)
    (hrow : s.rowAt sh r.row = some (.ok bs)) (hfor : r.for_ = .gather gid j) :
    s.rowReadComplete k h =
      (((s.stat r.ten r.tab 2 1).updTab r.ten r.tab fun x =>
        { x with chan := x.chan.upd (chanOf (4096 * l)) (· + 1), blk := x.blk.upd (r.row / sh.d.rpb) (· + 1) }).rowArrived r sh.d bs).gatherPump
          gid h := by
  unfold State.rowReadComplete
  rw [hf]
  dsimp only
  rw [hsh]
  dsimp only
  rw [hrepl]
  dsimp only
  rw [hrow, hl]
  dsimp only
  rw [hfor]

theorem State.rowReadRow_clean {r : RowRead} {sh : Shard} {l : Nat} (herrs : s.mem.errs = []) (hrepl : r.repl = none)
    (hf : (s.emb.reads.find? fun r => r.k = k ∧ !r.far) = some r) (hsh : s.table? r.ten r.tab = some sh)
    (hl : sh.loc (r.row / sh.d.rpb) = some l) :
    s.rowReadRow k [] h = ((s.rowReadComplete k h).servesPump).exchangesPump h := by
  rw [State.rowReadRow, State.strike, List.foldl_nil, hf]
  dsimp only
  rw [hsh]
  dsimp only
  rw [hrepl, hl]
  dsimp only
  rw [State.meetPhys_clean herrs]

section
variable {o : FarOp} (hf : (s.emb.far.find? fun o => o.k = k ∧ o.kind = .read ∧ o.outstanding ∧ o.qp = none) = some o)
include hf

theorem State.farReadComplete_data (bs : List W8) :
    s.farReadComplete k (some bs) h = ((s.farArrived o (sliceB bs 0 4096)).farWaiting).embPump h := by
  rw [State.farReadComplete, hf]

theorem State.farReadComplete_failed : s.farReadComplete k none h = (s.logPcie.farFailed o false 0).embPump h := by
  rw [State.farReadComplete, hf]

end

theorem State.farWritebackComplete_found {o : FarOp}
    (hf : (s.emb.far.find? fun o => o.k = k ∧ o.kind = .write ∧ o.outstanding ∧ o.qp = none) = some o) :
    s.farWritebackComplete k h = ((s.farWrote o).farWaiting).embPump h := by
  rw [State.farWritebackComplete, hf]

theorem State.farTimedOut_out {o : FarOp} (hf : (s.emb.far.find? fun o => o.k = k ∧ o.outstanding ∧ (o.kind ≠ .write ∨ o.qp.isSome)) = some o)
    (ht : s.farTimeout o.part ≤ ticks o.issued s.now) :
    s.farTimedOut k h = (((s.leavePair o).owed o).farFailed o true 0).farWaiting.embPump h := by
  rw [State.farTimedOut, hf]
  exact if_neg (Nat.not_lt.mpr ht)

theorem State.farTimedOut_none (hf : (s.emb.far.find? fun o => o.k = k ∧ o.outstanding ∧ (o.kind ≠ .write ∨ o.qp.isSome)) = none) :
    s.farTimedOut k h = s := by
  rw [State.farTimedOut, hf]

theorem State.opTimedOut_out {o : PageOp} (hf : (s.seq.ops.find? fun o => o.k = k ∧ o.outstanding ∧ o.data.isNone) = some o)
    (ht : s.farTimeout o.part ≤ ticks o.issued s.now) : s.opTimedOut k = (s.opFailed o true).seqPump := by
  rw [State.opTimedOut, hf]
  exact if_pos ht

end

/-- Settles O46, row by row: the read or far operation that the row names is found and ends. -/
theorem rowAndFarOperationsComplete : Obligations.RowAndFarOperationsComplete := by
  unfold Obligations.RowAndFarOperationsComplete
  refine fun s k h => ⟨fun r sh l bs gid j herrs hrepl hf hsh hl hrow hfor => ?row, fun o bs hrun hf => ?read, fun o hrun hf => ?failed,
    fun o hrun hf => ?wrote, fun o hrun hf ht => ?far, fun o hrun hfar hf ht => ?paging⟩
  case row =>
    refine answer_to rfl ((State.rowReadRow_clean herrs hrepl hf hsh hl).trans ?_)
    rw [State.rowReadComplete_gather hrepl hf hsh hl hrow hfor]
  case read =>
    exact answer_runs hrun rfl (fun t => ((t.farReadComplete k (some bs) h).seqPump).exchangesPump h) (by rw [State.farReadComplete_data hf])
  case failed =>
    exact answer_runs hrun rfl (fun t => ((t.farReadComplete k none h).seqPump).exchangesPump h) (by rw [State.farReadComplete_failed hf])
  case wrote =>
    exact answer_runs hrun rfl (fun t => ((t.farWritebackComplete k h).seqPump).exchangesPump h) (by rw [State.farWritebackComplete_found hf])
  case far =>
    exact answer_runs hrun rfl (fun t => (((t.farTimedOut k h).opTimedOut k).seqPump).exchangesPump h) (by rw [State.farTimedOut_out hf ht])
  case paging =>
    exact answer_runs hrun rfl (fun t => (((t.farTimedOut k h).opTimedOut k).seqPump).exchangesPump h)
      (by rw [State.farTimedOut_none hfar, State.opTimedOut_out hf ht])

end Sys2Proof.Machine


/-! Placement (R174, R175, R200, R224), slots and pages (R216, R250, R252): background slices, copies line by line, the zero engine; then O47 and O48. -/

namespace Sys2Proof.Machine

section
variable {s : State} {k : Nat}

/-- A background slice that its engine runs ends. -/
theorem State.bgSlice_runs {e : Engine} (hjob : (s.eng e).job = none) (hbg : (s.eng e).bg = true) (f : State → State) :
    s.bgSlice e f = ((f s).updEng e fun g => { g with bg := false, last := 65 }).takeItem e [] :=
  if_neg (by simp [hjob, hbg])

/-! ### Block moves and replicas -/

theorem State.moveRow_runs {m : Move} (hf : (s.emb.moves.find? fun m => m.k = k) = some m) (hrun : s.runs (16 + pageIsland (m.src / 512)))
    (hjob : (s.eng (.memCopy (pageIsland (m.src / 512)))).job = none) (hbg : (s.eng (.memCopy (pageIsland (m.src / 512)))).bg = true) :
    s.moveRow k = ((s.blockMoveCopyDone k).updEng (.memCopy (pageIsland (m.src / 512))) fun g =>
      { g with bg := false, last := 65 }).takeItem (.memCopy (pageIsland (m.src / 512))) [] := by
  rw [State.moveRow, hf]
  exact (State.onIsland_runs hrun _).trans (State.bgSlice_runs hjob hbg _)

/-- A move whose lines stand open and whose block kept its version switches the directory to the copy. -/
theorem State.blockMoveCopyDone_switches {m : Move} {sh : Shard} (hf : (s.emb.moves.find? fun m => m.k = k) = some m)
    (hsh : s.table? m.ten m.tab = some sh) (hopen : ∀ i < 64, s.heldCause (64 * m.src + i) = none ∧ s.heldCause (64 * m.dst + i) = none)
    (hver : (sh.dir.get m.blk).version = m.version) :
    s.blockMoveCopyDone k =
      ((((List.range 64).foldl (fun t i => t.moveLine m.src m.dst i) (s.meetPhys (4096 * m.src) 4096)).withEmb fun e =>
        { e with moves := e.moves.filter fun q => q.k ≠ k }).updDir
          m.ten m.tab m.blk fun q => { q with loc := some m.dst, migrating := false }).stat m.ten m.tab 9 1 := by
  have hheld : ((List.range 64).any fun i => (s.heldCause (64 * m.src + i)).isSome || (s.heldCause (64 * m.dst + i)).isSome) = false := by
    rw [List.any_eq_false]
    intro i hi
    obtain ⟨hsrc, hdst⟩ := hopen i (List.mem_range.mp hi)
    simp [hsrc, hdst]
  unfold State.blockMoveCopyDone
  rw [hf]
  dsimp only
  rw [hsh]
  dsimp only
  rw [if_neg (Bool.eq_false_iff.mp hheld), if_pos hver]

theorem State.moveLine_poisoned {src dst i : Nat} (h : s.linePoison (64 * src + i) = true) :
    s.moveLine src dst i = (let f := (s.radd32 .poisonReads (chanOf (64 * (64 * src + i))) 0 1).free
                            f.2.poisonLine (64 * dst + i) (f.1.toNat % 256)) :=
  if_pos h

/-- A whole line that stands open in service is written. -/
theorem State.lineWrite_whole {pa : Nat} {bs : List W8} (hheld : s.heldCause (pa / 64) = none) (htag : s.mem.tagErrs.contains (pa / 64 / 32768) = false)
    (hchan : s.rbit .chanState 16 (chanOf pa) = false) (hlen : bs.length = 64) :
    s.lineWrite pa bs = .ok (s.withMem fun m =>
      { m with
        bytes := memPuts m.bytes pa bs
        errs := m.errs.filter (fun e => e.line != pa / 64)
        poison := m.poison.filter (fun l => l != pa / 64)
        plist := m.plist.filter (fun l => l != pa / 64) }) := by
  unfold State.lineWrite
  simp only [hheld, htag, hchan]
  exact if_pos hlen

theorem State.moveLine_clean {src dst i : Nat} (h : s.linePoison (64 * src + i) = false) (hheld : s.heldCause (64 * dst + i) = none)
    (htag : s.mem.tagErrs.contains ((64 * dst + i) / 32768) = false) (hchan : s.rbit .chanState 16 (chanOf (64 * (64 * dst + i))) = false) :
    s.moveLine src dst i = s.withMem fun x =>
      { x with
        bytes := memPuts x.bytes (64 * (64 * dst + i)) (memGets x.bytes (64 * (64 * src + i)) 64)
        errs := x.errs.filter fun e => e.line != 64 * dst + i
        poison := x.poison.filter fun l => l != 64 * dst + i
        plist := x.plist.filter fun l => l != 64 * dst + i } := by
  have hline : 64 * (64 * dst + i) / 64 = 64 * dst + i := Nat.mul_div_cancel_left _ (by decide)
  have hw := State.lineWrite_whole (s := s) (pa := 64 * (64 * dst + i)) (bs := memGets s.mem.bytes (64 * (64 * src + i)) 64)
    (by rw [hline]; exact hheld) (by rw [hline]; exact htag) hchan (by simp [memGets])
  rw [hline] at hw
  refine (if_neg (Bool.eq_false_iff.mp h)).trans ?_
  rw [hw]
  simp only [State.withMem]

theorem State.placementWindowEnd_due (h : s.emb.winDue = true) {u : State}
    (hu : s.emb.tabs.ents.foldl (fun t e => match e.2 with
      | some sh => if sh.defining.isSome then t else t.windowShard e.1 sh
      | none => t) (s.withEmb fun e => { e with winDue := false }) = u) :
    s.placementWindowEnd = State.startMoves 4096 u := by
  subst hu
  exact if_neg (by simp [h])

end

/-- Settles O47: a move by its lines and its version, a line by its poison, a window by the tables there are, and the replicas that stay. -/
theorem placementRowsAct : Obligations.PlacementRowsAct := by
  unfold Obligations.PlacementRowsAct
  refine fun s k => ⟨fun m sh e hf he hrun hjob hbg hsh hopen hver => ?move, fun src dst i h => State.moveLine_poisoned h,
    fun src dst i h hheld htag hchan => State.moveLine_clean h hheld htag hchan, fun hdue hnil => ?none, fun key sh hdue hone hdef => ?one, ?expiry⟩
  case move =>
    subst he
    refine answer_to rfl ((State.moveRow_runs hf hrun hjob hbg).trans ?_)
    rw [State.blockMoveCopyDone_switches hf hsh hopen hver]
  case none => exact answer_to rfl (State.placementWindowEnd_due hdue (by rw [hnil, List.foldl_nil]))
  case one =>
    refine answer_to rfl (State.placementWindowEnd_due hdue ?_)
    rw [hone, List.foldl_cons, List.foldl_nil]
    exact if_neg (by simp [hdef])
  case expiry => exact ⟨_, answer_to rfl rfl, rfl, rfl, fun r => by simp [State.replicaExpiry, State.withEmb]⟩

/-! ### Stream slots -/

section
variable {s : State} {k : Nat}

theorem State.seqAcquire_space {id : CtxId} {ch : Chunk} {m : Fam} {need ins : List Nat} {s2 : State} (hc : s.chunk? id = some ch)
    (hm : s.fam? ch.ten ch.fam = some m) (hacq : ch.acquired = false)
    (hfirst : ((s.seq.chunks.find? fun k => k.ten = ch.ten ∧ k.fam = ch.fam ∧ !k.acquired).map (·.id)) = some id) (hpag : m.d.paging = 0)
    (hneed : need = (ch.ents.filter fun e => (m.slots.get e.1.stream).entry.isNone).map (·.1.stream)) (hfree : need.length ≤ m.free)
    (hins : ins = (ch.ents.filter fun e =>
      (m.slots.get e.1.stream).st = .out && (m.slots.get e.1.stream).entry.isNone && !e.1.reset).map (·.1.stream))
    (h2 : s2 = ((s.updFam ch.ten ch.fam fun k =>
        let k1 := need.foldl Fam.take k
        { k1 with slots := ch.ents.foldl (fun sl e => sl.upd e.1.stream fun z =>
            { z with pins := z.pins ++ [id], st := if ins.contains e.1.stream then .pagingIn else z.st }) k1.slots }).withSeq fun v =>
          { v with chunks := v.chunks.map fun k => if k.id = id then { k with acquired := true, pageIns := ins.length } else k })) :
    s.seqAcquire id = (ins.foldl (fun t k => t.addPageOp ch.ten ch.fam k false) s2).seqPump := by
  subst hneed hins h2
  unfold State.seqAcquire
  rw [hc]
  dsimp only
  rw [hm]
  dsimp only
  rw [if_neg (not_or.mpr ⟨Bool.eq_false_iff.mp hacq, fun hne => hne hfirst⟩), if_pos hpag, hm]
  exact if_neg (Nat.not_lt.mpr hfree)

theorem State.pageInDone_data {o : PageOp} {bs : List W8}
    (hf : (s.seq.ops.find? fun o => o.k = k ∧ o.outstanding ∧ !o.out ∧ o.data.isNone) = some o) :
    s.pageInDone k (some bs) = (s.updOp k fun p => { p with data := some bs }).seqPump := by
  rw [State.pageInDone, hf]

theorem State.pageInGo_paid {o : PageOp} {m : Fam} {bs : List W8} {t : State} (hf : (s.seq.ops.find? fun o => o.k = k ∧ o.data.isSome) = some o)
    (hm : s.fam? o.ten o.fam = some m) (hdata : o.data = some bs) (hpay : s.payOp o m.d.rs = (t, true))
    (hheld : t.recHeld m ((m.slots.get o.stream).entry.getD 0) = none) :
    s.pageInGo k = (((t.recWrite m ((m.slots.get o.stream).entry.getD 0) (sliceB bs 0 m.d.rs)).radd32 .seqPageIns o.ten 0 1).updSeqSlot
      o.ten o.fam o.stream fun z => { z with st := .clean }).endOp k := by
  unfold State.pageInGo
  rw [hf]
  dsimp only
  rw [hm]
  dsimp only
  rw [hpay]
  dsimp only
  rw [hdata, hheld]
  rfl

theorem State.pageOutDone_ok {o : PageOp} (hf : (s.seq.ops.find? fun o => o.k = k ∧ o.outstanding ∧ o.out) = some o) :
    s.pageOutDone k true =
      (((s.radd32 .seqPageOuts o.ten 0 1).updFam o.ten o.fam fun m =>
        if (m.slots.get o.stream).pins ≠ [] then { m with slots := m.slots.upd o.stream fun z => { z with st := .clean } }
        else ({ m with slots := m.slots.upd o.stream fun z => { z with st := .out } }).release o.stream).endOp k).seqPump := by
  rw [State.pageOutDone, hf]
  rfl

/-! ### The zero engine -/

theorem State.charges_mem (n : Nat) : ∀ (as : List Acct) (s : State), (s.charges as n).mem = s.mem
  | [], _ => rfl
  | a :: as, s => State.charges_mem n as (s.charge a n)

/-- A payment that its accounts pass is whole, and leaves memory as it is. -/
theorem State.payPart_whole {as : List Acct} {unit left who : Nat} {part : Option Nat} (h : s.pass as left = true) :
    ∃ t, s.payPart as unit left who part = (t, left) ∧ t.mem = s.mem := by
  by_cases h0 : left = 0
  · exact ⟨s, (if_pos h0).trans (by rw [h0]), rfl⟩
  · exact ⟨_, (if_neg h0).trans (if_pos h), State.charges_mem ..⟩

/-- The zero engine is done with a page that no command claimed: it is zero and FREE, and no line of it is poisoned (R216). -/
theorem State.zeroPage_free {p : Nat} {rest : List Nat} (hdirty : s.mem.dirty.get k = p :: rest)
    (hpass : s.pass [.bg 3] (512 * 4096 - s.mem.zeroPaid.get k) = true) (hclaim : (s.mem.pages.get p).claim = none)
    (hretry : ∀ r ∈ s.mem.retry, r.line / 32768 ≠ p) (hq : s.mem.quiesce.contains (p / 768) = false) (hclk : s.clockOn (16 + k) = true) :
    ∃ t, s.zeroPage k = (t, none) ∧ t.mem.bytes = memZero s.mem.bytes (pageSize * p) pageSize ∧ (t.mem.pages.get p).st = .free ∧
      t.mem.dirty.get k = rest ∧ t.mem.zeroPaid.get k = 0 ∧
      ∀ l, l / 32768 = p → t.mem.poison.contains l = false ∧ t.mem.plist.contains l = false := by
  obtain ⟨s0, hpay, hmem⟩ := State.payPart_whole (unit := 4096) (who := 0xFF) (part := none) hpass
  have hgo : ¬(s.mem.zeroPaid.get k + (512 * 4096 - s.mem.zeroPaid.get k) < 512 * 4096 ∨
      (s.mem.retry.any fun r => decide (r.line / 32768 = p)) = true ∨ s.mem.quiesce.contains (p / 768) = true ∨ (!s.clockOn (16 + k)) = true) := by
    rintro (h | h | h | h)
    · omega
    · obtain ⟨r, hr, he⟩ := List.any_eq_true.mp h
      exact hretry r hr (of_decide_eq_true he)
    · exact absurd h (Bool.eq_false_iff.mp hq)
    · simp [hclk] at h
  unfold State.zeroPage
  rw [hdirty]
  dsimp only
  rw [hpay]
  dsimp only
  rw [if_neg hgo, hclaim]
  refine ⟨_, rfl, ?_, ?_, ?_, ?_, fun l hl => ⟨?_, ?_⟩⟩
  all_goals simp [State.withMem, State.radd32, hmem]
  all_goals exact fun _ => hl

theorem State.zeroOne_unclaimed {t : State} (h : s.zeroPage k = (t, none)) : s.zeroOne k = t := by rw [State.zeroOne, h]

theorem State.zeroRow_runs {p : Nat} {rest : List Nat} (hdirty : s.mem.dirty.get k = p :: rest) (hjob : (s.eng (.memZero k)).job = none)
    (hbg : (s.eng (.memZero k)).bg = true) :
    s.zeroRow k = ((s.zeroOne k).updEng (.memZero k) fun g => { g with bg := false, last := 65 }).takeItem (.memZero k) [] :=
  (if_pos (by simp [State.bgWaits, hdirty])).trans (State.bgSlice_runs hjob hbg _)

end

/-- Settles O48, row by row: a chunk that finds its space, a page-in and a page-out that end, and a page that no command claimed. -/
theorem slotAndPageEventsComplete : Obligations.SlotAndPageEventsComplete := by
  unfold Obligations.SlotAndPageEventsComplete
  refine fun s k => ⟨fun q c ch m need ins s2 hok hrun hc hm hacq hfirst hpag hneed hfree hins h2 =>
      answer_cp hrun hok (State.seqAcquire_space hc hm hacq hfirst hpag hneed hfree hins h2),
    fun o bs hrun hf => answer_runs hrun rfl _ (State.pageInDone_data hf),
    fun o m bs t hf hm hdata hpay hheld => State.pageInGo_paid hf hm hdata hpay hheld,
    fun o hrun hf => answer_runs hrun rfl _ (State.pageOutDone_ok hf),
    fun p rest t hk hrun hdirty hpass hclaim hretry hq hjob hbg ht => ?_⟩
  obtain ⟨u, hu, hpage⟩ := State.zeroPage_free hdirty hpass hclaim hretry hq hrun
  rw [State.zeroOne_unclaimed hu] at ht
  subst ht
  refine ⟨answer_runs hrun (decide_eq_true hk) _ ((State.zeroRow_runs hdirty hjob hbg).trans ?_), hpage⟩
  rw [State.zeroOne_unclaimed hu]

end Sys2Proof.Machine


/-! Stacked memory's errors (R219 to R221, R226): O49. -/

namespace Sys2Proof.Machine

section
variable {s : State} {line lane : Nat} {wr : Bool} {who : Option CtxId}

theorem State.parityRetry_ends (s : State) (line lane : Nat) (wr : Bool) (who : Option CtxId) :
    s.parityRetry line lane wr true who = (s.withMem fun m => { m with retry := m.retry.filter fun r => r.line ≠ line }).unheld := by
  unfold State.parityRetry
  exact if_pos rfl

/-- The last failure of an access that has a retry open exhausts it, by whether it writes. -/
theorem State.parityRetry_exhausts {r : LineRetry} {u : State} (hr : (s.mem.retry.find? fun r => r.line = line) = some r) (h0 : r.left = 0)
    (hu : u = ((s.radd32 .parErr (chanOf (line * 64)) 0 1).laneFailure line lane).withMem fun m =>
      { m with retry := m.retry.filter fun r => r.line ≠ line }) :
    s.parityRetry line lane wr false who = (if r.write then u.writeExhausted line who else u.readExhausted line who).unheld := by
  subst hu
  unfold State.parityRetry
  dsimp only
  rw [hr]
  exact (if_neg Bool.false_ne_true).trans (if_pos h0)

/-- The first failure of an access opens its retries. -/
theorem State.parityRetry_opens (hr : (s.mem.retry.find? fun r => r.line = line) = none)
    (h0 : s.rfld .ifPolicy 0 3 (chanOf (line * 64) / 8) ≠ 0) :
    s.parityRetry line lane wr false who =
      ((((s.radd32 .parErr (chanOf (line * 64)) 0 1).laneFailure line lane).withMem fun m =>
        { m with retry := m.retry.filter fun r => r.line ≠ line }).radd32 .retries (chanOf (line * 64)) 0 1).withMem fun m =>
          { m with retry := ⟨line, s.rfld .ifPolicy 0 3 (chanOf (line * 64) / 8) - 1, wr⟩ :: m.retry } := by
  unfold State.parityRetry
  dsimp only
  rw [hr]
  exact (if_neg Bool.false_ne_true).trans (if_neg h0)

theorem State.laneRepairDone_quiesced {c : Nat} (h : s.mem.quiesce.contains c = true) :
    s.laneRepairDone c =
      ((((s.withMem fun m => { m with quiesce := m.quiesce.filter (· ≠ c) }).rsetFld .chanState 11 5
        (s.rfld .chanState 11 5 c - 1) c).chanError c 6).logFault { cls := 5, island := 16 + c / 8, action := 0, loc := c }).unheld :=
  if_neg (by rw [h]; exact Bool.false_ne_true)

/-- A scrub within its budget reads the next line in service, where it stands open and the channel has not come round. -/
theorem State.scrubRead_next {c p : Nat} (hen : s.rbit .scrub 16 (c / 8) = true) (hleft : s.mem.scrubCnt.get c < s.rfld .scrub 0 16 (c / 8))
    (hp : p = s.inService c 768 (s.mem.scrubPos.get c)) (hle : s.mem.scrubPos.get c ≤ p) (hend : p + 1 < chanLines)
    (hopen : s.heldCause (chanLines * c + p) = none) :
    s.scrubRead c [] = (s.meetLine (chanLines * c + p)).withMem fun x =>
      { x with
        scrubPos := x.scrubPos.set c ((p + 1) % chanLines)
        scrubCnt := x.scrubCnt.upd c (· + 1) } := by
  have hwrap : (decide (p < s.mem.scrubPos.get c) || decide (p + 1 = chanLines)) = false := by
    simp [Nat.not_lt.mpr hle, Nat.ne_of_lt hend]
  unfold State.scrubRead
  rw [State.strike, List.foldl_nil]
  dsimp only
  rw [← hp, if_neg (by simp [hen, Nat.not_le.mpr hleft]), if_neg (by simp [hopen]), hwrap]
  exact if_neg Bool.false_ne_true

end

/-- Settles O49, row by row: a retry by its outcome and by what is open for the line, a lane repair, a scrub. -/
theorem memoryEventsAct : Obligations.MemoryEventsAct := by
  unfold Obligations.MemoryEventsAct
  intro s line lane wr who c
  have hok (hl : line < 64 * 768 * 32768) (hn : lane < 64) : (lineOk line && decide (lane < 64)) = true := by
    simp [lineOk, hn]
    omega
  refine ⟨fun hl hn hrun => answer_runs hrun (hok hl hn) _ (State.parityRetry_ends ..), fun r u hl hn hrun hr h0 hu => ⟨fun hw => ?_, fun hw => ?_⟩,
    fun hl hn hrun hr h0 => answer_runs hrun (hok hl hn) _ (State.parityRetry_opens hr h0),
    fun hc hrun hq => answer_runs hrun (decide_eq_true hc) _ (State.laneRepairDone_quiesced hq),
    fun p hc hrun hen hleft hp hle hend hopen => answer_runs hrun (decide_eq_true hc) _ (State.scrubRead_next hen hleft hp hle hend hopen)⟩
  · refine answer_runs hrun (hok hl hn) _ ((State.parityRetry_exhausts hr h0 hu).trans ?_)
    rw [if_pos hw]
  · refine answer_runs hrun (hok hl hn) _ ((State.parityRetry_exhausts hr h0 hu).trans ?_)
    rw [if_neg (Bool.eq_false_iff.mp hw)]

end Sys2Proof.Machine


/-! Power and safety (R112, R295, R296, R305, R307, R308, R330 to R340): O50 to O53. -/

namespace Sys2Proof.Machine

/-! ### The power cap -/

/-- PWR.CAP_STATUS as a write of the cap leaves it: pending, and the path that wrote it. -/
theorem capStatus_written (v : Nat) (m : Bool) :
    bit (setFld (setFld v 8 1 1) 9 1 (b01 m) % 2 ^ 64) 8 = true ∧ bit (setFld (setFld v 8 1 1) 9 1 (b01 m) % 2 ^ 64) 9 = m := by
  have hm : b01 m = 0 ∨ b01 m = 1 := by cases m <;> simp [b01]
  have h8 : setFld (setFld v 8 1 1) 9 1 (b01 m) % 2 ^ 64 / 256 % 2 = 1 := by
    simp only [setFld, fld, Nat.shiftRight_eq_div_pow]
    omega
  have h9 : setFld (setFld v 8 1 1) 9 1 (b01 m) % 2 ^ 64 / 512 % 2 = b01 m := by
    simp only [setFld, fld, Nat.shiftRight_eq_div_pow]
    omega
  simp only [bit, fld, Nat.shiftRight_eq_div_pow]
  refine ⟨by simpa using h8, ?_⟩
  cases m <;> simpa [b01] using h9

section
variable {s : State}

/-- What a write of the cap leaves, from either path. -/
theorem State.capWrite_written (v : Nat) (m : Bool) :
    (s.capWrite v m).rnat .cap = v % 2048 ∧ (s.capWrite v m).rbit .capStatus 8 = true ∧ (s.capWrite v m).rbit .capStatus 9 = m ∧
      (s.capWrite v m).pwr.capAt = some (s.now + 1000000) := by
  obtain ⟨h8, h9⟩ := capStatus_written (s.rnat .capStatus) m
  have hregs (n : RegName) : (s.capWrite v m).rnat n = ((s.rput .cap 0 0 (v % 2048)).rput .capStatus 0 0
      (setFld (setFld (s.rnat .capStatus) 8 1 1) 9 1 (b01 m))).rnat n := rfl
  have hcap : (s.capWrite v m).rnat .cap = v % 2048 := by
    rw [hregs, State.rnat_rput, if_neg (by simp), State.rnat_rput, if_pos rfl]
    omega
  have hst : (s.capWrite v m).rnat .capStatus = setFld (setFld (s.rnat .capStatus) 8 1 1) 9 1 (b01 m) % 2 ^ 64 := by
    rw [hregs, State.rnat_rput, if_pos rfl]
  exact ⟨hcap, by rw [State.rbit, hst, h8], by rw [State.rbit, hst, h9], rfl⟩

theorem State.capEffective_due {t : W64} (hat : s.pwr.capAt = some t) (ht : Machine.reached s.now t = true) :
    s.capEffective = ((s.rsetFld .capStatus 8 1 0).withPwr fun p => { p with capAt := none }).capEvent 1 := by
  rw [State.capEffective, hat]
  exact if_pos ht

theorem State.capEscalation_rises (he : s.pwr.escal = false) (hn : 10 ≤ s.pwr.overBot) :
    s.capEscalation = (List.range 16).foldl (fun u k => u.demand k 0 3) (s.withPwr fun p => { p with escal := true }) :=
  if_pos (by simp [he, hn])

theorem State.capEscalation_falls (he : s.pwr.escal = true) (hn : 10 ≤ s.pwr.under) :
    s.capEscalation = (List.range 16).foldl (fun u k => u.demand k 0 0) (s.withPwr fun p => { p with escal := false }) :=
  (if_neg (by simp [he])).trans (if_pos (by simp [he, hn]))

theorem State.capUnmet_rises (hb : s.rbit .capStatus 7 = false) (hn : 100 ≤ s.pwr.above) :
    s.capUnmet = (s.rsetFld .capStatus 7 1 1).capEvent 2 :=
  if_pos (by simp [hb, hn])

theorem State.capUnmet_falls (hb : s.rbit .capStatus 7 = true) (hn : 100 ≤ s.pwr.met) :
    s.capUnmet = (s.rsetFld .capStatus 7 1 0).capEvent 3 :=
  (if_neg (by simp [hb])).trans (if_pos (by simp [hb, hn]))

end

/-- Settles O50: a write by the path it came from, then each of the cap's own rows by its measure. -/
theorem powerCapRowsAct : Obligations.PowerCapRowsAct := by
  unfold Obligations.PowerCapRowsAct
  refine fun s v => ⟨fun h => ⟨_, answer_reached h.2 rfl (fun t => t.capWrite v.toNat false) rfl, State.capWrite_written _ _⟩,
    fun h => ⟨_, answer_mgmt h rfl (fun t => t.capWrite v.toNat true) rfl, State.capWrite_written _ _⟩,
    fun t hat ht => answer_to rfl (State.capEffective_due hat ht), fun he hn => answer_to rfl (State.capEscalation_rises he hn),
    fun he hn => answer_to rfl (State.capEscalation_falls he hn), fun hb hn => answer_to rfl (State.capUnmet_rises hb hn),
    fun hb hn => answer_to rfl (State.capUnmet_falls hb hn)⟩

/-! ### Throttling -/

section
variable {s : State} {k : Nat}

theorem State.stopWindowEnd_over {t : W64} (hwin : (s.isl k).win = some t) (ht : s.dutyTicks ≤ ticks t s.now) :
    s.stopWindowEnd k = (s.updIsl k fun i => { i with win := none }).showIsl k := by
  rw [State.stopWindowEnd, hwin]
  exact if_pos ht

theorem State.stackEscalate_hot {t : W64} (hheat : (s.isl k).heat = some t) :
    s.stackEscalate k = if 2000000 ≤ ticks t s.now then s.demand k 2 4 else if 1000000 ≤ ticks t s.now then s.demand k 2 3 else s := by
  rw [State.stackEscalate, hheat]

end

/-- Settles O51, row by row. -/
theorem throttlingRowsAct : Obligations.ThrottlingRowsAct := by
  unfold Obligations.ThrottlingRowsAct
  refine fun s k src low => ⟨fun hk hsrc hfall ht => answer_to (by simp [islandOk, hk, hsrc]) (if_pos ⟨hfall, ht⟩),
    fun t hk hwin ht => answer_to (decide_eq_true hk) (State.stopWindowEnd_over hwin ht),
    fun t hk hheat ht => answer_to (decide_eq_true hk) ((State.stackEscalate_hot hheat).trans (if_pos ht)),
    fun t hk hheat h1 h2 => answer_to (decide_eq_true hk)
      ((State.stackEscalate_hot hheat).trans ((if_neg (Nat.not_le.mpr h2)).trans (if_pos h1))),
    fun hlow => answer_to rfl (if_neg hlow), fun htrip => answer_to rfl (if_neg (by simp [htrip]))⟩

/-! ### Clock faults -/

section
variable {s : State} {k : Nat}

/-- A droop whose supply was back within its bound ends, and a cell's tiles are replayed. -/
theorem State.droopRestart_recovers {t : W64} (hd : (s.isl k).droop = some t) (h1 : 200 ≤ ticks t s.now) (h2 : ticks t s.now ≤ 10200) :
    s.droopRestart k false =
      if k < 16 then (((s.radd32 .droopCount k 0 1).updIsl k fun i => { i with droop := none }).showIsl k).droopReplay k
      else ((s.radd32 .droopCount k 0 1).updIsl k fun i => { i with droop := none }).showIsl k := by
  rw [State.droopRestart, hd]
  exact (if_neg (by simp [h2])).trans (if_neg (Nat.not_lt.mpr h1))

/-- A clock or voltage fault where CLK_STOP is set stops the clock, and what ran there goes to the fault policy. -/
theorem State.clockFault_stops (h : s.rbit .safePolicy 2 = true) :
    s.clockFault k =
      if k < 16 then
        (((s.updIsl k fun i => { i with fault := some s.now }).showIsl k).logFault { cls := 13, island := k, action := 7 }).retentionLost k
      else (((s.updIsl k fun i => { i with fault := some s.now }).showIsl k).logFault { cls := 13, island := k, action := 7 }).handIsland k :=
  if_pos h

theorem State.clockRestart_over {t : W64} (hf : (s.isl k).fault = some t) (ht : 1000000 ≤ ticks t s.now) :
    s.clockRestart k = (s.updIsl k fun i => { i with fault := none }).showIsl k := by
  rw [State.clockRestart, hf]
  exact if_pos ht

end

/-- Settles O52, row by row, a cell apart from the other islands. -/
theorem clockFaultRowsAct : Obligations.ClockFaultRowsAct := by
  unfold Obligations.ClockFaultRowsAct
  intro s k hk
  have hok : islandOk k = true := decide_eq_true hk
  refine ⟨fun hd => answer_to hok (if_neg (by simp [hd])),
    fun t hd h1 h2 hk => answer_to hok ((State.droopRestart_recovers hd h1 h2).trans (if_neg (Nat.not_lt.mpr hk))),
    fun t hd h1 h2 hk => answer_to hok ((State.droopRestart_recovers hd h1 h2).trans (if_pos hk)),
    fun h => answer_to hok (if_neg (by simp [h])),
    fun h hk => answer_to hok ((State.clockFault_stops h).trans (if_neg (Nat.not_lt.mpr hk))),
    fun h hk => answer_to hok ((State.clockFault_stops h).trans (if_pos hk)),
    fun t hf ht => answer_to hok (State.clockRestart_over hf ht),
    fun hrun h => answer_runs hrun rfl State.lockstep (if_pos h),
    fun hrun h => answer_runs hrun rfl State.lockstep (if_neg (by simp [h]))⟩

/-! ### Entropy and configuration -/

section
variable {s : State} {u : Nat}

theorem State.entropyRestart_passes (hfail : s.entFailed u = true) (hen : s.rbit .qstPolicy 2 = true)
    (ht : 10000000 ≤ ticks (s.qst.failAt.get u) s.now) :
    s.entropyRestart u true =
      ((s.rsetFld .entStatus 0 1 0 u).withQst fun q => { q with restarts := q.restarts.upd u (· + 1) }).seedDrbg u :=
  (if_neg (by simp [hfail, hen, ht])).trans (if_pos rfl)

theorem State.drbgReseed_due (hfail : s.entFailed u = false) (hdue : 2 ^ 20 ≤ s.qst.reqs.get u ∨ 1000000000 ≤ ticks (s.qst.seeded.get u) s.now) :
    s.drbgReseed u = s.seedDrbg u :=
  (if_neg (by simp [hfail])).trans (if_pos hdue)

end

/-- Settles O53, row by row. -/
theorem entropyAndConfigurationRowsAct : Obligations.EntropyAndConfigurationRowsAct := by
  unfold Obligations.EntropyAndConfigurationRowsAct
  intro s u test hu
  have hok : qUnitOk u = true := decide_eq_true hu
  exact ⟨fun h1 h3 hrun => answer_runs hrun (by simp [hok, h1, h3]) (fun t => t.entropyFail u test) rfl,
    fun hrun hfail hen ht => answer_runs hrun hok (fun t => t.entropyRestart u true) (State.entropyRestart_passes hfail hen ht),
    fun hrun hfail hdue => answer_runs hrun hok (fun t => t.drbgReseed u) (State.drbgReseed_due hfail hdue),
    answer_to rfl (if_neg Bool.false_ne_true), answer_to rfl (if_pos rfl)⟩

end Sys2Proof.Machine


/-! The block after reset (R52, R78, R344, R370): O5. -/

namespace Sys2Proof.Machine

/-- After reset every register reads as the Reset column of its table gives it. -/
theorem State.rnat_reset (n : RegName) (i j : Nat) : State.reset.rnat n i j = (regReset ⟨n, i, j⟩).toNat := rfl

/-- Of a register that P0 alone has at reset. -/
theorem p0Reset_toNat (p v : Nat) (hv : v < 2 ^ 64) : (p0Reset p v).toNat = if p = 0 then v else 0 := by
  unfold p0Reset
  split
  · exact (BitVec.toNat_ofNat v 64).trans (Nat.mod_eq_of_lt hv)
  · rfl

/-- At reset an account of a tenant holds its budget, whichever its unit is. -/
theorem State.balance_reset_ten (t u : Nat) (hu : u < 4) : State.reset.balance (.ten t u) = (State.reset.budget (.ten t u) : Int) := by
  change (tenBudReset u).toInt =
    ((if u = 0 then sat 6400 (fld (0x1900 : W64).toNat 0 13) * 1000 else if u = 1 then fld (0x17D784 : W64).toNat 0 32 * 4096
      else if u = 2 then fld (0x3D09 : W64).toNat 0 16 * 4096 else sat 200 (fld (0 : W64).toNat 0 8) * 1000 : Nat) : Int)
  interval_cases u <;> decide

/-- At reset an account of a partition holds its budget, P0's as a tenant's and any other's of nothing. -/
theorem State.balance_reset_part (p u : Nat) (hu : u < 3) : State.reset.balance (.part p u) = (State.reset.budget (.part p u) : Int) := by
  change (if p = 0 then tenBudReset u else 0).toInt =
    ((if u = 0 then sat 6400 (fld (p0Reset p 0x1900).toNat 0 13) * 1000 else if u = 1 then fld (p0Reset p 0x17D784).toNat 0 32 * 4096
      else fld (p0Reset p 0x3D09).toNat 0 16 * 4096 : Nat) : Int)
  by_cases hp : p = 0
  · subst hp
    interval_cases u <;> decide
  · simp only [p0Reset, if_neg hp]
    interval_cases u <;> decide

/-- At reset a background account holds its budget. -/
theorem State.balance_reset_bg (a : Nat) (ha : a < 4) : State.reset.balance (.bg a) = (State.reset.budget (.bg a) : Int) := by
  interval_cases a <;> decide

/-- Settles O5: the registers by their Reset values, the accounts by kind and unit. -/
theorem resetLeavesTheBlockIdle : Obligations.ResetLeavesTheBlockIdle := by
  unfold Obligations.ResetLeavesTheBlockIdle
  refine ⟨by decide, fun c hc => absurd hc List.not_mem_nil, rfl, fun a => ⟨rfl, rfl⟩, fun q => ⟨rfl, rfl⟩, fun fn => ?ring, rfl, rfl,
    fun o i => rfl, fun p => ⟨p0Reset_toNat p 0xFFFF (by decide), ?pstate⟩, ?accts, fun l => ?link⟩
  case pstate =>
    rw [State.pstate, State.rfld, State.rnat_reset]
    exact (congrArg (fld · 0 3) (p0Reset_toNat p 1 (by decide))).trans (by split <;> rfl)
  case ring =>
    have hctrl : bit (0x600 : W64).toNat 0 = false := by decide
    exact hctrl
  case link =>
    have hstatus : fld (0xFFFF0001 : W64).toNat 0 3 = 1 := by decide
    exact hstatus
  case accts =>
    intro a ha
    simp only [allAccts, List.mem_append, List.mem_flatten, List.mem_map, List.mem_range] at ha
    rcases ha with (⟨_, ⟨t, -, rfl⟩, ha⟩ | ⟨_, ⟨p, -, rfl⟩, ha⟩) | ⟨k, hk, rfl⟩
    · obtain ⟨u, hu, rfl⟩ := List.mem_map.mp ha
      exact State.balance_reset_ten t u (List.mem_range.mp hu)
    · obtain ⟨u, hu, rfl⟩ := List.mem_map.mp ha
      exact State.balance_reset_part p u (List.mem_range.mp hu)
    · exact State.balance_reset_bg k hk

end Sys2Proof.Machine
